-- ==== Sys2Proof/Word.lean ====
section
/-! DEFINITION. The words of the block: bytes, the 128-bit command word, the 64-bit length, the 32-bit
read port, and the four bytes of a mask key (spec 00_scope.md R9, R11, R12). Everything is unsigned. -/

namespace Sys2Proof

/-- One wire or payload byte (R10, R11). -/
abbrev Byte := BitVec 8

/-- A command word `C[127:0]` (R80; `CMD_WIDTH`, R9). -/
abbrev Command := BitVec 128

/-- The width of the register read port (`REG_WIDTH`, R9). -/
abbrev Word32 := BitVec 32

/-- A payload length or a payload counter (`LEN_WIDTH`, R9). -/
abbrev Word64 := BitVec 64

/-- A mask key: four bytes, `k0` (`KEY[0]`) first on the wire (R12, R55, R78). -/
structure MaskKey where
  k0 : Byte
  k1 : Byte
  k2 : Byte
  k3 : Byte
  deriving DecidableEq, Repr

/-- The all-zero key: the reset value of `RX_KEY` and `TX_KEY` (R46), and the key of an unmasked TX frame (R113). -/
def MaskKey.zero : MaskKey := ⟨0, 0, 0, 0⟩

end Sys2Proof
end

