-- ==== Sys2Proof/Syntax.lean ====
section
/-! DEFINITION. The instructions: one constructor per row of spec/opcode_table.json. The block decodes two
encodings (spec 30_encoding.md): the host's 128-bit command words (format `cmd128`) and byte 0 of a wire
frame (format `frame_b0`). Operands are the encoded fields, each at its own width (R82, R70). -/

namespace Sys2Proof

/-- One instruction of either encoding. -/
inductive Instr where
  /-- NOP, CODE 0x0 (R182). -/
  | nop
  /-- RX_PUSH, CODE 0x1: `data` is the next wire byte (R140). -/
  | rxPush (data : Byte)
  /-- RX_ACK, CODE 0x2 (R154). -/
  | rxAck
  /-- RX_RESET, CODE 0x3 (R155). -/
  | rxReset
  /-- TX_START, CODE 0x4: the description of one frame (R111). -/
  | txStart (fin : Bool) (rsv : BitVec 3) (opcode : BitVec 4) (len : Word64) (key : MaskKey)
  /-- TX_PUSH, CODE 0x5: `data` is one unmasked payload byte (R116). -/
  | txPush (data : Byte)
  /-- TX_RESET, CODE 0x6 (R119). -/
  | txReset
  /-- RD_REG, CODE 0x7: `idx` is the register index (R180, R181). -/
  | rdReg (idx : Byte)
  /-- RESERVED_CODE: a word whose CODE is 0x8..0xF, with its other 124 bits, which may be anything (R183). -/
  | reservedCode (code : BitVec 4) (rest : BitVec 124)
  /-- CONT: byte 0 of a Continuation frame (R156). -/
  | cont (fin : Bool)
  /-- TEXT: byte 0 of a Text frame (R157). -/
  | text (fin : Bool)
  /-- BIN: byte 0 of a Binary frame (R158). -/
  | bin (fin : Bool)
  /-- CLOSE: byte 0 of a Close frame; FIN is 1 (R159). -/
  | close
  /-- PING: byte 0 of a Ping frame; FIN is 1 (R160). -/
  | ping
  /-- PONG: byte 0 of a Pong frame; FIN is 1 (R161). -/
  | pong
  /-- RESERVED_OP_3: a byte 0 with the reserved opcode 0x3; FIN and RSV may be anything (R162). -/
  | reservedOp3 (fin : Bool) (rsv : BitVec 3)
  /-- RESERVED_OP_4 (R162). -/
  | reservedOp4 (fin : Bool) (rsv : BitVec 3)
  /-- RESERVED_OP_5 (R162). -/
  | reservedOp5 (fin : Bool) (rsv : BitVec 3)
  /-- RESERVED_OP_6 (R162). -/
  | reservedOp6 (fin : Bool) (rsv : BitVec 3)
  /-- RESERVED_OP_7 (R162). -/
  | reservedOp7 (fin : Bool) (rsv : BitVec 3)
  /-- RESERVED_OP_B (R162). -/
  | reservedOpB (fin : Bool) (rsv : BitVec 3)
  /-- RESERVED_OP_C (R162). -/
  | reservedOpC (fin : Bool) (rsv : BitVec 3)
  /-- RESERVED_OP_D (R162). -/
  | reservedOpD (fin : Bool) (rsv : BitVec 3)
  /-- RESERVED_OP_E (R162). -/
  | reservedOpE (fin : Bool) (rsv : BitVec 3)
  /-- RESERVED_OP_F (R162). -/
  | reservedOpF (fin : Bool) (rsv : BitVec 3)
  deriving DecidableEq, Repr

end Sys2Proof
end

