-- ==== Sys2Proof/WellFormed.lean ====
section
/-! DEFINITION. The one check that an instruction's operand types do not already make: a RESERVED_CODE word
has CODE in 0x8..0xF (spec 30_encoding.md R81, R83). -/

namespace Sys2Proof

/-- `i` is an instruction some word spells: the CODE of RESERVED_CODE is one of 0x8..0xF (R81). -/
def Instr.wellFormed : Instr → Bool
  | .reservedCode code _ => decide (8#4 ≤ code)
  | .nop | .rxPush _ | .rxAck | .rxReset | .txStart .. | .txPush _ | .txReset | .rdReg _
  | .cont _ | .text _ | .bin _ | .close | .ping | .pong
  | .reservedOp3 .. | .reservedOp4 .. | .reservedOp5 .. | .reservedOp6 .. | .reservedOp7 ..
  | .reservedOpB .. | .reservedOpC .. | .reservedOpD .. | .reservedOpE .. | .reservedOpF .. => true

end Sys2Proof
end

