-- ==== Sys2Proof/Decode.lean ====
section
/-! DEFINITION. The two decoders and, after them, the encoder, from the field tables of spec 30_encoding.md
(R70 for byte 0 of a frame; R80 to R83 for command words) and the rows of spec/opcode_table.json. Each
decoder is total and names what it rejects. -/

namespace Sys2Proof

/-! ### Fields of a command word (R82) -/

/-- CODE = `C[3:0]` (R80). -/
def Command.code (c : Command) : BitVec 4 := c.extractLsb' 0 4

/-- `C[15:8]`: DATA of RX_PUSH and TX_PUSH, IDX of RD_REG (R82). -/
def Command.operandByte (c : Command) : Byte := c.extractLsb' 8 8

/-- TX_START's FIN = `C[4]` (R82). -/
def Command.fin (c : Command) : Bool := c.getLsbD 4

/-- TX_START's RSV = `C[7:5]` (R82). -/
def Command.rsv (c : Command) : BitVec 3 := c.extractLsb' 5 3

/-- TX_START's OPCODE = `C[11:8]` (R82). -/
def Command.opcode (c : Command) : BitVec 4 := c.extractLsb' 8 4

/-- TX_START's KEY: `KEY[0] = C[63:56]` to `KEY[3] = C[39:32]` (R82). -/
def Command.key (c : Command) : MaskKey :=
  ⟨c.extractLsb' 56 8, c.extractLsb' 48 8, c.extractLsb' 40 8, c.extractLsb' 32 8⟩

/-- TX_START's LEN = `C[127:64]` (R82). -/
def Command.len (c : Command) : Word64 := c.extractLsb' 64 64

/-- The bits above CODE, all of them free in a RESERVED_CODE word (R183). -/
def Command.aboveCode (c : Command) : BitVec 124 := c.extractLsb' 4 124

/-- The packed key word: `KEY[0]` in bits 31:24 (R55, R82). -/
def MaskKey.pack (k : MaskKey) : Word32 := k.k0 ++ k.k1 ++ k.k2 ++ k.k3

/-- The four bytes of a packed key word, `KEY[0]` most significant (R55, R82). -/
def MaskKey.unpack (w : Word32) : MaskKey :=
  ⟨w.extractLsb' 24 8, w.extractLsb' 16 8, w.extractLsb' 8 8, w.extractLsb' 0 8⟩

/-! ### Decoding a command word -/

/-- Why a word with a defined CODE spells no command. -/
inductive CommandError where
  /-- A bit that R82 reserves for the word's CODE is 1 (R83, R184): IREASON = 2. -/
  | reservedBit (code : BitVec 4)
  deriving DecidableEq, Repr

/-- The bits R82 reserves for a defined CODE: every bit it does not list. -/
def reservedBits (code : BitVec 4) : Command :=
  match code.toNat with
  | 1 | 5 | 7 => 0xFFFFFFFFFFFFFFFFFFFFFFFFFFFF00F0#128
  | 4 => 0x000000000000000000000000FFFFF000#128
  | _ => 0xFFFFFFFFFFFFFFFFFFFFFFFFFFFFFFF0#128

/-- The command of a word whose CODE is defined and whose reserved bits are 0 (R81, R82). -/
def commandOf (c : Command) : Instr :=
  match c.code.toNat with
  | 0 => .nop
  | 1 => .rxPush c.operandByte
  | 2 => .rxAck
  | 3 => .rxReset
  | 4 => .txStart c.fin c.rsv c.opcode c.len c.key
  | 5 => .txPush c.operandByte
  | 6 => .txReset
  | 7 => .rdReg c.operandByte
  | _ => .reservedCode c.code c.aboveCode

/-- The command a 128-bit word spells. CODE is looked at first, then the reserved bits (R215): a word with
a reserved CODE is RESERVED_CODE whatever its other bits (R183); a word with a defined CODE and a reserved
bit set is rejected (R184). -/
def decodeCommand (c : Command) : Except CommandError Instr :=
  if 8#4 ≤ c.code then .ok (commandOf c)
  else if c &&& reservedBits c.code = 0 then .ok (commandOf c)
  else .error (.reservedBit c.code)

/-! ### Decoding byte 0 of a frame (R70, R72, R74) -/

/-- `fin`, bit 7 of byte 0 (R70). -/
def Byte.fin (b : Byte) : Bool := b.getLsbD 7

/-- `rsv`, bits 6:4 of byte 0 (R70). -/
def Byte.rsv (b : Byte) : BitVec 3 := b.extractLsb' 4 3

/-- `opcode`, bits 3:0 of byte 0 (R70). -/
def Byte.opcode (b : Byte) : BitVec 4 := b.extractLsb' 0 4

/-- Byte 0 of a frame from its three fields: `fin<<7 | rsv<<4 | opcode` (R70). -/
def byte0 (fin : Bool) (rsv : BitVec 3) (opcode : BitVec 4) : Byte := BitVec.ofBool fin ++ rsv ++ opcode

/-- Why a byte matches no `frame_b0` row of the table: its opcode is one of the six and a fixed bit of that
opcode's row differs. -/
inductive Byte0Error where
  /-- RSV is not 0 with a defined opcode (R70, R142). -/
  | rsvNonzero
  /-- FIN is 0 with a control opcode (R142). -/
  | controlFragmented
  deriving DecidableEq, Repr

/-- A data opcode's row fixes RSV = 0 and leaves FIN free (R156 to R158). -/
def dataFrame (b : Byte) (i : Bool → Instr) : Except Byte0Error Instr :=
  if b.rsv = 0 then .ok (i b.fin) else .error .rsvNonzero

/-- A control opcode's row fixes RSV = 0 and FIN = 1 (R159 to R161). -/
def controlFrame (b : Byte) (i : Instr) : Except Byte0Error Instr :=
  if b.rsv ≠ 0 then .error .rsvNonzero else if b.fin then .ok i else .error .controlFragmented

/-- The `frame_b0` instruction of a wire byte that stands as byte 0 of a frame. -/
def decodeByte0 (b : Byte) : Except Byte0Error Instr :=
  match b.opcode.toNat with
  | 0x0 => dataFrame b .cont
  | 0x1 => dataFrame b .text
  | 0x2 => dataFrame b .bin
  | 0x3 => .ok (.reservedOp3 b.fin b.rsv)
  | 0x4 => .ok (.reservedOp4 b.fin b.rsv)
  | 0x5 => .ok (.reservedOp5 b.fin b.rsv)
  | 0x6 => .ok (.reservedOp6 b.fin b.rsv)
  | 0x7 => .ok (.reservedOp7 b.fin b.rsv)
  | 0x8 => controlFrame b .close
  | 0x9 => controlFrame b .ping
  | 0xA => controlFrame b .pong
  | 0xB => .ok (.reservedOpB b.fin b.rsv)
  | 0xC => .ok (.reservedOpC b.fin b.rsv)
  | 0xD => .ok (.reservedOpD b.fin b.rsv)
  | 0xE => .ok (.reservedOpE b.fin b.rsv)
  | _ => .ok (.reservedOpF b.fin b.rsv)

/-! ### Both encodings together -/

/-- The words of an instruction, in the encoding it belongs to: a 128-bit command word, or one wire byte
that stands as byte 0 of a frame. -/
inductive Encoded where
  | command (c : Command)
  | frameByte0 (b : Byte)
  deriving DecidableEq, Repr

/-- The instruction the words spell, or `none` where they spell none. -/
def decode : Encoded → Option Instr
  | .command c => (decodeCommand c).toOption
  | .frameByte0 b => (decodeByte0 b).toOption

/-- What the block performs when the host presents the command word `c`. `atFrameStart` says that RX is in
HDR0, so that an RX_PUSH's byte is byte 0 of a frame (R24, R140): the byte is then an instruction of the
second encoding, and is decoded as one. A byte 0 that matches no row stays the RX_PUSH it came with. -/
def decodeAt (atFrameStart : Bool) (c : Command) : Except CommandError Instr :=
  match decodeCommand c with
  | .ok (.rxPush d) =>
    if atFrameStart then
      match decodeByte0 d with
      | .ok i => .ok i
      | .error _ => .ok (.rxPush d)
    else .ok (.rxPush d)
  | r => r

/-! ### The encoder -/

/-- A command word whose only field besides CODE is `C[15:8]` (R82). -/
def encodeByteCommand (code : BitVec 4) (d : Byte) : Command := 0#112 ++ d ++ 0#4 ++ code

/-- A command word without fields (R82). -/
def encodeBareCommand (code : BitVec 4) : Command := 0#124 ++ code

/-- TX_START's word (R82): LEN, KEY, the reserved bits `C[31:12]`, OPCODE, RSV, FIN, CODE. -/
def encodeTxStart (fin : Bool) (rsv : BitVec 3) (opcode : BitVec 4) (len : Word64) (key : MaskKey) : Command :=
  len ++ key.pack ++ 0#20 ++ opcode ++ rsv ++ BitVec.ofBool fin ++ 0x4#4

/-- The words of an instruction (R70, R81, R82). -/
def encode : Instr → Encoded
  | .nop => .command (encodeBareCommand 0x0)
  | .rxPush d => .command (encodeByteCommand 0x1 d)
  | .rxAck => .command (encodeBareCommand 0x2)
  | .rxReset => .command (encodeBareCommand 0x3)
  | .txStart fin rsv opcode len key => .command (encodeTxStart fin rsv opcode len key)
  | .txPush d => .command (encodeByteCommand 0x5 d)
  | .txReset => .command (encodeBareCommand 0x6)
  | .rdReg idx => .command (encodeByteCommand 0x7 idx)
  | .reservedCode code rest => .command (rest ++ code)
  | .cont fin => .frameByte0 (byte0 fin 0 0x0)
  | .text fin => .frameByte0 (byte0 fin 0 0x1)
  | .bin fin => .frameByte0 (byte0 fin 0 0x2)
  | .close => .frameByte0 (byte0 true 0 0x8)
  | .ping => .frameByte0 (byte0 true 0 0x9)
  | .pong => .frameByte0 (byte0 true 0 0xA)
  | .reservedOp3 fin rsv => .frameByte0 (byte0 fin rsv 0x3)
  | .reservedOp4 fin rsv => .frameByte0 (byte0 fin rsv 0x4)
  | .reservedOp5 fin rsv => .frameByte0 (byte0 fin rsv 0x5)
  | .reservedOp6 fin rsv => .frameByte0 (byte0 fin rsv 0x6)
  | .reservedOp7 fin rsv => .frameByte0 (byte0 fin rsv 0x7)
  | .reservedOpB fin rsv => .frameByte0 (byte0 fin rsv 0xB)
  | .reservedOpC fin rsv => .frameByte0 (byte0 fin rsv 0xC)
  | .reservedOpD fin rsv => .frameByte0 (byte0 fin rsv 0xD)
  | .reservedOpE fin rsv => .frameByte0 (byte0 fin rsv 0xE)
  | .reservedOpF fin rsv => .frameByte0 (byte0 fin rsv 0xF)

/-! ### The table's words -/

/-- The words that `nbits` bits numbered as spec/opcode_table.json numbers them stand for. The table gives a
`frame_b0` row 8 bits and a `cmd128` row as many of its 128 as it fixes, the bits above being 0: an 8-bit
word is a byte 0 where it matches a `frame_b0` row, and every other word is a command word. Log entry 2
(DESIGN CHOICE, safe): the table gives RESERVED_CODE no bit above 3, so its word 0x08 is 8 bits long too. -/
def tableWord (nbits w : Nat) : Encoded :=
  let v := w % 2 ^ nbits
  match nbits == 8, decodeByte0 (BitVec.ofNat 8 v) with
  | true, .ok _ => .frameByte0 (BitVec.ofNat 8 v)
  | _, _ => .command (BitVec.ofNat 128 v)

/-- The instruction the decoder reads from a word numbered as the opcode table numbers it. -/
def decodeTableWord (nbits w : Nat) : Option Instr := decode (tableWord nbits w)

/-- The command word by which the host presents encoded words: a command word is itself, and a wire byte
comes with an RX_PUSH (R53, R140). -/
def Encoded.presented : Encoded → Command
  | .command c => c
  | .frameByte0 b => encodeByteCommand 0x1 b

/-- Whether the words are byte 0 of a frame, which RX takes only in HDR0 (R24). -/
def Encoded.isFrameByte0 : Encoded → Bool
  | .command _ => false
  | .frameByte0 _ => true

/-- One row of spec/opcode_table.json: the encoded words `w` with `w & mask = pattern`, in the row's format. -/
structure TableRow where
  mnemonic : String
  mask : Encoded
  pattern : Encoded
  deriving DecidableEq, Repr

/-- The words match the row: its format, and its fixed bits. -/
def TableRow.matches (row : TableRow) (w : Encoded) : Bool :=
  match w, row.mask, row.pattern with
  | .command c, .command m, .command p => c &&& m == p
  | .frameByte0 b, .frameByte0 m, .frameByte0 p => b &&& m == p
  | _, _, _ => false

/-- The row of a command without fields. -/
def bareRow (name : String) (pattern : Command) : TableRow :=
  ⟨name, .command 0xFFFFFFFFFFFFFFFFFFFFFFFFFFFFFFFF#128, .command pattern⟩

/-- The row of a command with the byte field `C[15:8]`. -/
def byteRow (name : String) (pattern : Command) : TableRow :=
  ⟨name, .command 0xFFFFFFFFFFFFFFFFFFFFFFFFFFFF00FF#128, .command pattern⟩

/-- A `frame_b0` row. -/
def frameRow (name : String) (mask pattern : Byte) : TableRow := ⟨name, .frameByte0 mask, .frameByte0 pattern⟩

/-- The opcode table's row of each instruction: "mnemonic", "mask" and "match" as the table has them. -/
def Instr.row : Instr → TableRow
  | .nop => bareRow "NOP" 0x0
  | .rxPush _ => byteRow "RX_PUSH" 0x1
  | .rxAck => bareRow "RX_ACK" 0x2
  | .rxReset => bareRow "RX_RESET" 0x3
  | .txStart .. => ⟨"TX_START", .command 0xFFFFF00F#128, .command 0x4⟩
  | .txPush _ => byteRow "TX_PUSH" 0x5
  | .txReset => bareRow "TX_RESET" 0x6
  | .rdReg _ => byteRow "RD_REG" 0x7
  | .reservedCode .. => ⟨"RESERVED_CODE", .command 0x8#128, .command 0x8⟩
  | .cont _ => frameRow "CONT" 0x7F 0x00
  | .text _ => frameRow "TEXT" 0x7F 0x01
  | .bin _ => frameRow "BIN" 0x7F 0x02
  | .close => frameRow "CLOSE" 0xFF 0x88
  | .ping => frameRow "PING" 0xFF 0x89
  | .pong => frameRow "PONG" 0xFF 0x8A
  | .reservedOp3 .. => frameRow "RESERVED_OP_3" 0x0F 0x03
  | .reservedOp4 .. => frameRow "RESERVED_OP_4" 0x0F 0x04
  | .reservedOp5 .. => frameRow "RESERVED_OP_5" 0x0F 0x05
  | .reservedOp6 .. => frameRow "RESERVED_OP_6" 0x0F 0x06
  | .reservedOp7 .. => frameRow "RESERVED_OP_7" 0x0F 0x07
  | .reservedOpB .. => frameRow "RESERVED_OP_B" 0x0F 0x0B
  | .reservedOpC .. => frameRow "RESERVED_OP_C" 0x0F 0x0C
  | .reservedOpD .. => frameRow "RESERVED_OP_D" 0x0F 0x0D
  | .reservedOpE .. => frameRow "RESERVED_OP_E" 0x0F 0x0E
  | .reservedOpF .. => frameRow "RESERVED_OP_F" 0x0F 0x0F

end Sys2Proof
end

