-- ==== Sys2Proof/Config.lean ====
section
/-! DEFINITION. What one instance fixes: the implementation parameters of spec 00_scope.md R9, and the one
parameter R9 leaves open, the ROLE strap, as a constant without a body. -/

namespace Sys2Proof

/-- The values of `ROLE`: 0 = Client, 1 = Server (R21). -/
inductive Role where
  | client
  | server
  deriving DecidableEq, Repr, Inhabited

/-- `ROLE` as the register map and the strap carry it: 0 = Client, 1 = Server (R21). -/
def Role.bit : Role → Bool
  | .client => false
  | .server => true

/-- The role of the other end of the connection (R122, R166). -/
def Role.opposite : Role → Role
  | .client => .server
  | .server => .client

/-- `MAX_LEN` = 2^63 − 1 (R9). -/
def Config.maxLen : Word64 := 0x7FFFFFFFFFFFFFFF#64

/-- `CTRL_MAX` = 125 (R9). -/
def Config.ctrlMax : Nat := 125

/-- The level of the ROLE strap when power-on reset samples it.
R9 leaves `ROLE` OPEN ("the model takes it as an argument"): the constant has no body, so no proof can
rest on either role.  Log entry 1 (DESIGN CHOICE, safe). -/
opaque Config.roleStrap : Role

end Sys2Proof
end

