-- ==== Sys2Proof/Machine/State.lean ====
section
/-! DEFINITION. The state of one WSFC instance (spec 10_state.md R20): ROLE, the RX and TX registers,
CMD_ERR and the two output streams, and beside them what stands between the block and its host: the strap's
level, the events the host has presented and not yet had performed, and the responses. The block has no
addressable memory (R50), so State has none. -/

namespace Sys2Proof.Machine

/-! ### The names that registers hold -/

/-- `RX_STATE`: which byte of the frame the next RX_PUSH consumes (R24). Code 7 never occurs, so it has no
constructor (log entry 7). -/
inductive RxState where
  | hdr0
  | hdr1
  | extLen
  | maskKey
  | payload
  | done
  | error
  deriving DecidableEq, Repr

/-- `TX_STATE`: no frame in progress, or payload bytes still owed (R28). -/
inductive TxState where
  | idle
  | payload
  deriving DecidableEq, Repr

/-- The causes of a ProtocolError (R201). `RX_ERR_CAUSE` is one of them, or none (code 0). -/
inductive ProtocolCause where
  | rsvNonzero
  | opcodeReserved
  | controlFragmented
  | unmasked
  | masked
  | controlTooLong
  | lenNonminimal
  | lenMsbSet
  deriving DecidableEq, Repr

/-- The causes of a TxRefused (R211). `TX_ERR` is one of them, or none (code 0). -/
inductive TxCause where
  | busy
  | rsv
  | opcode
  | ctrlFrag
  | ctrlLen
  | lenRange
  | noFrame
  deriving DecidableEq, Repr

/-- `IREASON`: why a command word is illegal (R30, R214). -/
inductive IllegalReason where
  | reservedCode
  | reservedBit
  | unmappedIndex
  deriving DecidableEq, Repr

/-! ### Registers -/

/-- The RX registers (R23). `deriving`-given equality compares every one of them. -/
structure RxUnit where
  /-- `RX_STATE`, 3 bits. -/
  state : RxState
  /-- `RX_HPOS`: header bytes consumed in the current frame. -/
  hpos : BitVec 4
  /-- `RX_EXT_NEED`: extended-length bytes this frame carries. -/
  extNeed : BitVec 4
  /-- `RX_EXT_IDX`: extended-length bytes consumed. -/
  extIdx : BitVec 4
  /-- `RX_KEY_IDX`: mask-key bytes consumed. -/
  keyIdx : BitVec 3
  /-- `RX_B0`: header byte 0 as received. -/
  b0 : Byte
  /-- `RX_B1`: header byte 1 as received. -/
  b1 : Byte
  /-- `RX_FIN`, 1 bit. -/
  fin : Bool
  /-- `RX_RSV`. -/
  rsv : BitVec 3
  /-- `RX_OPCODE`. -/
  opcode : BitVec 4
  /-- `RX_MASKED`, 1 bit. -/
  masked : Bool
  /-- `RX_LEN7`. -/
  len7 : BitVec 7
  /-- `RX_LEN`: the payload length; in EXTLEN, the accumulation so far. -/
  len : Word64
  /-- `RX_KEY[0..3]`. -/
  key : MaskKey
  /-- `RX_CNT`: payload bytes consumed in the current frame. -/
  cnt : Word64
  /-- `RX_ERR_CAUSE`, 4 bits; `none` is code 0. -/
  errCause : Option ProtocolCause
  /-- `RX_ERR_POS`: `RX_HPOS` before the offending byte. -/
  errPos : BitVec 4
  /-- `RX_ERR_BYTE`: the offending byte. -/
  errByte : Byte
  deriving DecidableEq, Repr

/-- The TX registers (R28). -/
structure TxUnit where
  /-- `TX_STATE`, 1 bit. -/
  state : TxState
  /-- `TX_B0`: header byte 0 emitted. -/
  b0 : Byte
  /-- `TX_B1`: header byte 1 emitted. -/
  b1 : Byte
  /-- `TX_FIN`, 1 bit. -/
  fin : Bool
  /-- `TX_RSV`. -/
  rsv : BitVec 3
  /-- `TX_OPCODE`. -/
  opcode : BitVec 4
  /-- `TX_MASKED`, 1 bit. -/
  masked : Bool
  /-- `TX_LEN7`. -/
  len7 : BitVec 7
  /-- `TX_LEN`: payload length. -/
  len : Word64
  /-- `TX_KEY[0..3]`. -/
  key : MaskKey
  /-- `TX_CNT`: payload bytes pushed in the current frame. -/
  cnt : Word64
  /-- `TX_ERR`, 4 bits: the first TxRefused since the last clear; `none` is code 0. -/
  err : Option TxCause
  deriving DecidableEq, Repr

/-- `CMD_ERR`: the first illegal command since hardware reset (R30). -/
structure CmdErr where
  /-- `ILLEGAL`: sticky. -/
  illegal : Bool
  /-- `ICODE`: CODE of the first illegal command. -/
  icode : BitVec 4
  /-- `IREASON`, 2 bits; `none` is 0. -/
  ireason : Option IllegalReason
  deriving DecidableEq, Repr

/-! ### The host's side -/

/-- The response of one command (R84). -/
structure Response where
  accepted : Bool
  rdata : Word32
  deriving DecidableEq, Repr

/-- What the outside world does to the block, one at a time (R8, R62, R230, R232). -/
inductive HostEvent where
  /-- A command word on the command port (R80). -/
  | command (c : Command)
  /-- The ROLE strap is driven to a level (R232, R234). -/
  | strap (level : Role)
  /-- Hardware reset is asserted and released (R230, R234). -/
  | hardReset
  deriving DecidableEq, Repr

/-- The state of one instance. -/
structure State where
  /-- `ROLE`, as sampled at the last hardware reset (R21, R232). -/
  role : Role
  /-- The level of the ROLE strap, an input pin (R232); the host drives it. -/
  strap : Role
  /-- The RX registers (R23). -/
  rx : RxUnit
  /-- The TX registers (R28). -/
  tx : TxUnit
  /-- `CMD_ERR` (R30). -/
  cmdErr : CmdErr
  /-- `rx_out`: the payload bytes of decoded frames, in order (R31, R51). -/
  rxOut : List Byte
  /-- `tx_out`: the wire bytes of encoded frames, in order (R31, R52). -/
  txOut : List Byte
  /-- The model's own: the host's events not yet performed, the next one first (R20 leaves them to the
  host; log entry 3). -/
  port : List HostEvent
  /-- The model's own: the responses returned so far, in order (R84; log entry 4). -/
  responses : List Response
  deriving DecidableEq, Repr

/-! ### Reset -/

/-- Every RX register at 0 (R46): what hardware reset, RX_ACK and RX_RESET leave. -/
def RxUnit.cleared : RxUnit where
  state := .hdr0
  hpos := 0
  extNeed := 0
  extIdx := 0
  keyIdx := 0
  b0 := 0
  b1 := 0
  fin := false
  rsv := 0
  opcode := 0
  masked := false
  len7 := 0
  len := 0
  key := MaskKey.zero
  cnt := 0
  errCause := none
  errPos := 0
  errByte := 0

/-- Every TX register at 0 (R46): what hardware reset and TX_RESET leave. -/
def TxUnit.cleared : TxUnit where
  state := .idle
  b0 := 0
  b1 := 0
  fin := false
  rsv := 0
  opcode := 0
  masked := false
  len7 := 0
  len := 0
  key := MaskKey.zero
  cnt := 0
  err := none

/-- `CMD_ERR` = 0 (R46). -/
def CmdErr.cleared : CmdErr := ⟨false, 0, none⟩

/-- The block right after power-on reset with the strap at `r` (R46, R231): R9 makes `ROLE` an argument. -/
def State.resetAs (r : Role) : State where
  role := r
  strap := r
  rx := RxUnit.cleared
  tx := TxUnit.cleared
  cmdErr := CmdErr.cleared
  rxOut := []
  txOut := []
  port := []
  responses := []

/-- The machine right after reset, its ROLE the strap's open value (R9, R46; log entry 1). -/
def State.reset : State := State.resetAs Config.roleStrap

/-! ### Outcomes -/

/-- The reasons the machine stops with a fault: there are none. Every error of the block is recorded in a
register the host polls, and every command completes (spec 60_exceptions.md, opening; R164). Safe: nothing
raises it. -/
inductive Fault where
  deriving DecidableEq, Repr

/-- The reasons an instruction has no meaning. -/
inductive Refusal where
  /-- Raised by an arm of `exec` whose instruction has no meaning yet (no arm is one); safe. -/
  | notModelled (mnemonic : String)
  deriving DecidableEq, Repr

/-- What performing an instruction answers. -/
abbrev Result := Host.Outcome State Fault Refusal

end Sys2Proof.Machine
end

