-- ==== Sys2Proof/Machine/Operands.lean ====
section
/-! DEFINITION. The operand forms and the arithmetic on them: register codes, opcode classes, the masking
function (spec 40_masking.md), the length forms and header bytes of the encoder (R75, R113), and the checks
of each unit in the spec's order (R112, R142, R144, R147, R148). -/

namespace Sys2Proof.Machine

/-! ### Register codes -/

/-- The code of `RX_STATE` (R24). -/
def RxState.code : RxState → BitVec 3
  | .hdr0 => 0
  | .hdr1 => 1
  | .extLen => 2
  | .maskKey => 3
  | .payload => 4
  | .done => 5
  | .error => 6

/-- The bit of `TX_STATE` (R28). -/
def TxState.bit : TxState → Bool
  | .idle => false
  | .payload => true

/-- The code of a ProtocolError cause (R201). -/
def ProtocolCause.code : ProtocolCause → BitVec 4
  | .rsvNonzero => 1
  | .opcodeReserved => 2
  | .controlFragmented => 3
  | .unmasked => 4
  | .masked => 5
  | .controlTooLong => 6
  | .lenNonminimal => 7
  | .lenMsbSet => 8

/-- `RX_ERR_CAUSE` as 4 bits; 0 = none (R23). -/
def errCauseCode : Option ProtocolCause → BitVec 4
  | none => 0
  | some c => c.code

/-- The code of a TxRefused cause (R211). -/
def TxCause.code : TxCause → BitVec 4
  | .busy => 1
  | .rsv => 2
  | .opcode => 3
  | .ctrlFrag => 4
  | .ctrlLen => 5
  | .lenRange => 6
  | .noFrame => 7

/-- `TX_ERR` as 4 bits; 0 = none (R28). -/
def txErrCode : Option TxCause → BitVec 4
  | none => 0
  | some c => c.code

/-- The code of an `IREASON` (R30). -/
def IllegalReason.code : IllegalReason → BitVec 2
  | .reservedCode => 1
  | .reservedBit => 2
  | .unmappedIndex => 3

/-- `IREASON` as 2 bits; 0 before any illegal command (R30, R46). -/
def ireasonCode : Option IllegalReason → BitVec 2
  | none => 0
  | some r => r.code

/-! ### Opcodes (R72 to R74) -/

/-- The six opcodes of R72. -/
def definedOpcode (op : BitVec 4) : Bool :=
  op = 0x0 || op = 0x1 || op = 0x2 || op = 0x8 || op = 0x9 || op = 0xA

/-- Control iff `OPCODE[3] = 1` (R73). -/
def isControl (op : BitVec 4) : Bool := op.getLsbD 3

/-! ### Masking (R100, R101) -/

/-- The key byte of a lane; only the lane `i mod 4` of a payload index matters (R14, R100). -/
def keyLane (k : MaskKey) (lane : BitVec 2) : Byte :=
  match lane.toNat with
  | 0 => k.k0
  | 1 => k.k1
  | 2 => k.k2
  | _ => k.k3

/-- `MASK(b, K, i, m)` (R100). -/
def mask (b : Byte) (k : MaskKey) (i : Word64) (m : Bool) : Byte :=
  if m then b ^^^ keyLane k (i.extractLsb' 0 2) else b

/-- `KEY[j] <- d` (R150). `j` is 0..3 in every state of the block; for the codes above, which `RX_KEY_IDX`
never holds in MASKKEY (R24, R25), no key byte is written. Log entry 5 (DESIGN CHOICE, safe). -/
def setKeyByte (k : MaskKey) (j : BitVec 3) (d : Byte) : MaskKey :=
  match j.toNat with
  | 0 => { k with k0 := d }
  | 1 => { k with k1 := d }
  | 2 => { k with k2 := d }
  | 3 => { k with k3 := d }
  | _ => k

/-- The four bytes of a key in wire order (R55, R78). -/
def keyBytes (k : MaskKey) : List Byte := [k.k0, k.k1, k.k2, k.k3]

/-! ### Header byte 1 (R71) -/

/-- `masked`, bit 7 of byte 1 (R71). -/
def maskedOf (b : Byte) : Bool := b.getLsbD 7

/-- `lengthField`, bits 6:0 of byte 1 (R71). -/
def len7Of (b : Byte) : BitVec 7 := b.extractLsb' 0 7

/-- Byte 1: `masked<<7 | lengthField` (R71). -/
def byte1 (masked : Bool) (len7 : BitVec 7) : Byte := BitVec.ofBool masked ++ len7

/-! ### Big-endian bytes and the minimal length form (R11, R54, R75) -/

/-- `BE16(v)` (R11). -/
def be16 (v : BitVec 16) : List Byte := [v.extractLsb' 8 8, v.extractLsb' 0 8]

/-- `BE64(v)` (R11). -/
def be64 (v : Word64) : List Byte :=
  [v.extractLsb' 56 8, v.extractLsb' 48 8, v.extractLsb' 40 8, v.extractLsb' 32 8,
   v.extractLsb' 24 8, v.extractLsb' 16 8, v.extractLsb' 8 8, v.extractLsb' 0 8]

/-- `l7` of R113: the lengthField of the minimal form (R75). -/
def lengthField (len : Word64) : BitVec 7 :=
  if len ≤ 125#64 then len.extractLsb' 0 7 else if len ≤ 65535#64 then 126 else 127

/-- `ext` of R113: the extended length bytes of the minimal form (R75). -/
def extBytes (len : Word64) : List Byte :=
  if len ≤ 125#64 then [] else if len ≤ 65535#64 then be16 (len.extractLsb' 0 16) else be64 len

/-! ### The TX unit (R112 to R114) -/

/-- TX masks every frame when ROLE = Client and none when ROLE = Server (R114). -/
def txMasks (r : Role) : Bool := r == .client

/-- The key TX uses: the operand when it masks, zero when it does not (R113, R114). -/
def txKey (r : Role) (key : MaskKey) : MaskKey := if txMasks r then key else MaskKey.zero

/-- The header TX_START emits: `[b0, b1] ++ ext ++ (m ? K : [])` (R113). -/
def headerBytes (r : Role) (fin : Bool) (opcode : BitVec 4) (len : Word64) (key : MaskKey) : List Byte :=
  byte0 fin 0 opcode :: byte1 (txMasks r) (lengthField len) :: extBytes len
    ++ (if txMasks r then keyBytes key else [])

/-- The checks of TX_START, in order; the first that fails is the cause (R112). -/
def txStartCheck (state : TxState) (fin : Bool) (rsv : BitVec 3) (opcode : BitVec 4) (len : Word64) :
    Option TxCause :=
  if state = .payload then some .busy
  else if rsv ≠ 0 then some .rsv
  else if !definedOpcode opcode then some .opcode
  else if isControl opcode && !fin then some .ctrlFrag
  else if isControl opcode && decide (125#64 < len) then some .ctrlLen
  else if len.getLsbD 63 then some .lenRange
  else none

/-! ### The RX unit (R142 to R148) -/

/-- The checks of byte 0, in order (R142). -/
def byte0Check (d : Byte) : Option ProtocolCause :=
  if d.rsv ≠ 0 then some .rsvNonzero
  else if !definedOpcode d.opcode then some .opcodeReserved
  else if isControl d.opcode && !d.fin then some .controlFragmented
  else none

/-- The mask bit RX demands: 1 at a Server, 0 at a Client (R21, R144). -/
def rxDemandsMask (r : Role) : Bool := r == .server

/-- The checks of byte 1, in order (R144). -/
def byte1Check (r : Role) (opcode : BitVec 4) (d : Byte) : Option ProtocolCause :=
  if rxDemandsMask r && !maskedOf d then some .unmasked
  else if !rxDemandsMask r && maskedOf d then some .masked
  else if isControl opcode && decide (125#7 < len7Of d) then some .controlTooLong
  else none

/-- `after_len()` (spec 42_decoder.md, opening; R145, R149): the state once the length is known. -/
def afterLen (masked : Bool) (len : Word64) : RxState :=
  if masked then .maskKey else if len = 0 then .done else .payload

/-- The check on the first byte of a 64-bit length (R147); `extIdx` counts that byte. -/
def lenMsbCheck (extNeed extIdx : BitVec 4) (d : Byte) : Bool := extNeed = 8 && extIdx = 1 && d.getLsbD 7

/-- The check on the last extended byte: the length is over-wide for its form (R76, R148). -/
def lenNonminimalCheck (extNeed : BitVec 4) (len : Word64) : Bool :=
  (extNeed = 2 && decide (len < 126#64)) || (extNeed = 8 && decide (len < 65536#64))

end Sys2Proof.Machine
end

