-- ==== Sys2Proof/Machine/Flags.lean ====
section
/-! DEFINITION. The status flags, computed from the registers and not stored (spec 10_state.md R27, R29), and
the register map that the read port shows (R32). -/

namespace Sys2Proof.Machine

/-! ### Status flags -/

/-- `NEED_MORE = (RX_STATE ≤ 4)` (R27). -/
def RxUnit.needMore (rx : RxUnit) : Bool := decide (rx.state.code ≤ 4#3)

/-- `HDR_VALID = (RX_STATE = 4) or (RX_STATE = 5)` (R27). -/
def RxUnit.hdrValid (rx : RxUnit) : Bool := rx.state = .payload || rx.state = .done

/-- `DONE = (RX_STATE = 5)` (R27). -/
def RxUnit.isDone (rx : RxUnit) : Bool := rx.state = .done

/-- `ERROR = (RX_STATE = 6)` (R27). -/
def RxUnit.isError (rx : RxUnit) : Bool := rx.state = .error

/-- `IS_CONTROL = RX_OPCODE[3]` (R27). -/
def RxUnit.isControlFrame (rx : RxUnit) : Bool := isControl rx.opcode

/-- `BUSY = TX_STATE` (R29). -/
def TxUnit.busy (tx : TxUnit) : Bool := tx.state.bit

/-- `TX_ERROR = (TX_ERR ≠ 0)` (R29). -/
def TxUnit.txError (tx : TxUnit) : Bool := tx.err.isSome

/-! ### The register map (R32) -/

/-- The registers of the map, by name. -/
inductive Reg where
  | cfg
  | rxStatus
  | rxHdr
  | rxLenLo
  | rxLenHi
  | rxKey
  | rxCntLo
  | rxCntHi
  | rxErr
  | txStatus
  | txHdr
  | txLenLo
  | txLenHi
  | txKey
  | txCntLo
  | txCntHi
  | cmdErr
  deriving DecidableEq, Repr

/-- The index of a register (R32). -/
def Reg.index : Reg → Byte
  | .cfg => 0x00
  | .rxStatus => 0x01
  | .rxHdr => 0x02
  | .rxLenLo => 0x03
  | .rxLenHi => 0x04
  | .rxKey => 0x05
  | .rxCntLo => 0x06
  | .rxCntHi => 0x07
  | .rxErr => 0x08
  | .txStatus => 0x09
  | .txHdr => 0x0A
  | .txLenLo => 0x0B
  | .txLenHi => 0x0C
  | .txKey => 0x0D
  | .txCntLo => 0x0E
  | .txCntHi => 0x0F
  | .cmdErr => 0x10

/-- The register at an index; `none` for the unmapped 0x11..0xFF (R32, R61). -/
def Reg.ofIndex (idx : Byte) : Option Reg :=
  match idx.toNat with
  | 0x00 => some .cfg
  | 0x01 => some .rxStatus
  | 0x02 => some .rxHdr
  | 0x03 => some .rxLenLo
  | 0x04 => some .rxLenHi
  | 0x05 => some .rxKey
  | 0x06 => some .rxCntLo
  | 0x07 => some .rxCntHi
  | 0x08 => some .rxErr
  | 0x09 => some .txStatus
  | 0x0A => some .txHdr
  | 0x0B => some .txLenLo
  | 0x0C => some .txLenHi
  | 0x0D => some .txKey
  | 0x0E => some .txCntLo
  | 0x0F => some .txCntHi
  | 0x10 => some .cmdErr
  | _ => none

/-- RX_STATUS (R32): reserved [31:24] and [19]. -/
def RxUnit.statusWord (rx : RxUnit) : Word32 :=
  0#8 ++ rx.extNeed ++ 0#1 ++ rx.keyIdx ++ rx.extIdx ++ rx.hpos
    ++ BitVec.ofBool rx.isControlFrame ++ BitVec.ofBool rx.isError ++ BitVec.ofBool rx.isDone
    ++ BitVec.ofBool rx.hdrValid ++ BitVec.ofBool rx.needMore ++ rx.state.code

/-- RX_HDR (R32). -/
def RxUnit.hdrWord (rx : RxUnit) : Word32 :=
  rx.len7 ++ BitVec.ofBool rx.masked ++ rx.opcode ++ rx.rsv ++ BitVec.ofBool rx.fin ++ rx.b0 ++ rx.b1

/-- RX_ERR (R32): reserved [31:16]. -/
def RxUnit.errWord (rx : RxUnit) : Word32 := 0#16 ++ rx.errByte ++ rx.errPos ++ errCauseCode rx.errCause

/-- TX_STATUS (R32): reserved [31:8] and [3:1]. -/
def TxUnit.statusWord (tx : TxUnit) : Word32 := 0#24 ++ txErrCode tx.err ++ 0#3 ++ BitVec.ofBool tx.busy

/-- TX_HDR (R32). -/
def TxUnit.hdrWord (tx : TxUnit) : Word32 :=
  tx.len7 ++ BitVec.ofBool tx.masked ++ tx.opcode ++ tx.rsv ++ BitVec.ofBool tx.fin ++ tx.b0 ++ tx.b1

/-- CMD_ERR (R32): reserved [31:10] and [3:1]. -/
def CmdErr.word (e : CmdErr) : Word32 :=
  0#22 ++ ireasonCode e.ireason ++ e.icode ++ 0#3 ++ BitVec.ofBool e.illegal

/-- The value of a register as RD_REG returns it (R32, R33, R56). -/
def Reg.value (g : Reg) (s : State) : Word32 :=
  match g with
  | .cfg => 0#31 ++ BitVec.ofBool s.role.bit
  | .rxStatus => s.rx.statusWord
  | .rxHdr => s.rx.hdrWord
  | .rxLenLo => s.rx.len.extractLsb' 0 32
  | .rxLenHi => s.rx.len.extractLsb' 32 32
  | .rxKey => s.rx.key.pack
  | .rxCntLo => s.rx.cnt.extractLsb' 0 32
  | .rxCntHi => s.rx.cnt.extractLsb' 32 32
  | .rxErr => s.rx.errWord
  | .txStatus => s.tx.statusWord
  | .txHdr => s.tx.hdrWord
  | .txLenLo => s.tx.len.extractLsb' 0 32
  | .txLenHi => s.tx.len.extractLsb' 32 32
  | .txKey => s.tx.key.pack
  | .txCntLo => s.tx.cnt.extractLsb' 0 32
  | .txCntHi => s.tx.cnt.extractLsb' 32 32
  | .cmdErr => s.cmdErr.word

end Sys2Proof.Machine
end

