-- ==== Sys2Proof/Machine/Ops.lean ====
section
/-! DEFINITION. The named operations over the state: writing a unit's registers, emitting to the two streams,
answering a command, the three error entries (ProtocolError R205, TxRefused R210, IllegalCommand R214) with
the clears that undo them, hardware reset, and taking the host's next event. The block has no return that
resumes at an error (R221). -/

namespace Sys2Proof.Machine

/-! ### Single writes -/

/-- Write the RX registers. -/
def State.setRx (s : State) (rx : RxUnit) : State := { s with rx := rx }

/-- Write the TX registers. -/
def State.setTx (s : State) (tx : TxUnit) : State := { s with tx := tx }

/-- Write `CMD_ERR`. -/
def State.setCmdErr (s : State) (e : CmdErr) : State := { s with cmdErr := e }

/-- `emit_rx(b)`: append to `rx_out` (R12, R31). -/
def State.emitRx (s : State) (b : Byte) : State := { s with rxOut := s.rxOut ++ [b] }

/-- `emit_tx` of each byte in order: append to `tx_out` (R12, R31). -/
def State.emitTx (s : State) (bs : List Byte) : State := { s with txOut := s.txOut ++ bs }

/-- Return the response of a command (R84). -/
def State.respond (s : State) (accepted : Bool) (rdata : Word32) : State :=
  { s with responses := s.responses ++ [⟨accepted, rdata⟩] }

/-- The host's events still to come. -/
def State.setPort (s : State) (p : List HostEvent) : State := { s with port := p }

/-! ### Ending a command (R12, R84) -/

/-- `accept`: the command took effect; `rdata` is 0 but for RD_REG. -/
def accept (s : State) : Result := .next (s.respond true 0)

/-- `reject`: not accepted in the current state. -/
def reject (s : State) : Result := .next (s.respond false 0)

/-! ### The error entries -/

/-- `raise ProtocolError(c)` with byte `d` at position `pos` (R205): the record, and RX_STATE = ERROR. Every
field the arm wrote before keeps its value. The command is accepted: the byte is consumed. -/
def RxUnit.raise (rx : RxUnit) (c : ProtocolCause) (pos : BitVec 4) (d : Byte) : RxUnit :=
  { rx with errCause := some c, errPos := pos, errByte := d, state := .error }

/-- `refuse TxRefused(c)` (R210): TX_ERR keeps the first cause; nothing is emitted, nothing else changes. -/
def refuseTx (c : TxCause) (s : State) : Result :=
  reject (s.setTx { s.tx with err := if s.tx.err = none then some c else s.tx.err })

/-- The new value of `CMD_ERR` when an illegal command comes (R214): the first one's CODE and reason stay. -/
def CmdErr.record (e : CmdErr) (icode : BitVec 4) (reason : IllegalReason) : CmdErr :=
  if e.illegal then e else ⟨true, icode, some reason⟩

/-- IllegalCommand (R214): recorded in `CMD_ERR`, answered `accepted = 0`; no other state changes. -/
def raiseIllegal (icode : BitVec 4) (reason : IllegalReason) (s : State) : Result :=
  reject (s.setCmdErr (s.cmdErr.record icode reason))

/-- A word that spells no command because a reserved bit is set (R184): ICODE is its CODE, IREASON is 2. -/
def rejectWord (e : CommandError) (s : State) : Result :=
  match e with
  | .reservedBit code => raiseIllegal code .reservedBit s

/-! ### Clears -/

/-- Every RX register becomes 0 (R154, R155). -/
def State.clearRx (s : State) : State := s.setRx RxUnit.cleared

/-- Every TX register becomes 0 (R119). -/
def State.clearTx (s : State) : State := s.setTx TxUnit.cleared

/-- Hardware reset (R231, R232): ROLE takes the strap, every register becomes 0; bytes already emitted and
responses already returned have left the block, and what the host has yet to present stays the host's. Assert
and release are one step (log entry 8). -/
def State.hardReset (s : State) : State :=
  { s with role := s.strap, rx := RxUnit.cleared, tx := TxUnit.cleared, cmdErr := CmdErr.cleared }

/-- The host drives the strap; outside reset this has no other effect (R232). -/
def State.driveStrap (s : State) (level : Role) : State := { s with strap := level }

/-! ### The host's next event -/

/-- RX waits for byte 0 of a frame (R24). -/
def State.atFrameStart (s : State) : Bool := s.rx.state = .hdr0

/-- The command word the host presents next and the state once the port has taken it, when its next event is
a command. -/
def State.nextCommand (s : State) : Option (Command × State) :=
  match s.port with
  | .command c :: rest => some (c, s.setPort rest)
  | _ => none

/-- The state in which the very next step performs the encoded words: they are presented first, and where
they are byte 0 of a frame RX stands at a frame's start, which it does in HDR0 only (R24, R140). -/
def State.present (s : State) (e : Encoded) : State :=
  let s' := if e.isFrameByte0 && !s.atFrameStart then s.clearRx else s
  s'.setPort (.command e.presented :: s.port)

end Sys2Proof.Machine
end

