-- ==== Sys2Proof/Machine/Port.lean ====
section
/-! DEFINITION. The commands of the port (spec 43_register_access.md): NOP, RD_REG, and the words whose CODE is
reserved. -/

namespace Sys2Proof.Machine

/-- NOP (R182). -/
def execNop (s : State) : Result := accept s

/-- RD_REG (R180, R181): an unmapped index is illegal, ICODE 7 and IREASON 3. -/
def execRdReg (idx : Byte) (s : State) : Result :=
  match Reg.ofIndex idx with
  | none => raiseIllegal 0x7 .unmappedIndex s
  | some g => .next (s.respond true (g.value s))

/-- A word with a reserved CODE (R183): illegal whatever its other bits, IREASON 1. -/
def execReservedCode (code : BitVec 4) (_rest : BitVec 124) (s : State) : Result :=
  raiseIllegal code .reservedCode s

end Sys2Proof.Machine
end

