-- ==== Sys2Proof/Machine/Rx.lean ====
section
/-! DEFINITION. The RX unit, the header parser and unmasker (spec 42_decoder.md): the arms of RX_PUSH by
RX_STATE, RX_ACK and RX_RESET. In every header arm the fields are written before the checks. -/

namespace Sys2Proof.Machine

/-- RX_PUSH in HDR0 (R141, R142): byte 0. -/
def rxHdr0 (d : Byte) (rx : RxUnit) : RxUnit :=
  let captured := { rx with b0 := d, fin := d.fin, rsv := d.rsv, opcode := d.opcode, hpos := 1 }
  match byte0Check d with
  | some c => captured.raise c rx.hpos d
  | none => { captured with state := .hdr1 }

/-- The next state after byte 1 (R145). -/
def afterByte1 (rx : RxUnit) : RxUnit :=
  if rx.len7 ≤ 125#7 then
    { rx with
      len := rx.len7.setWidth 64
      extNeed := 0
      state := afterLen rx.masked (rx.len7.setWidth 64) }
  else
    { rx with
      extNeed := if rx.len7 = 126 then 2 else 8
      extIdx := 0
      len := 0
      state := .extLen }

/-- RX_PUSH in HDR1 (R143 to R145): byte 1. -/
def rxHdr1 (r : Role) (d : Byte) (rx : RxUnit) : RxUnit :=
  let captured := { rx with b1 := d, masked := maskedOf d, len7 := len7Of d, hpos := 2 }
  match byte1Check r rx.opcode d with
  | some c => captured.raise c rx.hpos d
  | none => afterByte1 captured

/-- RX_PUSH in EXTLEN (R146 to R149): one extended-length byte, most significant first. -/
def rxExtLen (d : Byte) (rx : RxUnit) : RxUnit :=
  let counted :=
    { rx with len := rx.len <<< 8 ||| d.setWidth 64, extIdx := rx.extIdx + 1, hpos := rx.hpos + 1 }
  if lenMsbCheck counted.extNeed counted.extIdx d then counted.raise .lenMsbSet rx.hpos d
  else if counted.extIdx = counted.extNeed then
    if lenNonminimalCheck counted.extNeed counted.len then counted.raise .lenNonminimal rx.hpos d
    else { counted with state := afterLen counted.masked counted.len }
  else counted

/-- RX_PUSH in MASKKEY (R150): one key byte. -/
def rxMaskKey (d : Byte) (rx : RxUnit) : RxUnit :=
  let captured := { rx with key := setKeyByte rx.key rx.keyIdx d, keyIdx := rx.keyIdx + 1, hpos := rx.hpos + 1 }
  if captured.keyIdx = 4 then { captured with state := if captured.len = 0 then .done else .payload } else captured

/-- RX_PUSH in PAYLOAD (R151): one payload byte counted, and DONE on the last. -/
def rxPayload (rx : RxUnit) : RxUnit :=
  let cnt := rx.cnt + 1
  { rx with cnt := cnt, state := if cnt = rx.len then .done else rx.state }

/-- RX_PUSH of one wire byte, its arm selected by RX_STATE (R140): the header arms write RX registers only,
PAYLOAD also emits the unmasked byte, and DONE and ERROR do not consume the byte (R152, R153). -/
def rxPushByte (d : Byte) (s : State) : Result :=
  match s.rx.state with
  | .hdr0 => accept (s.setRx (rxHdr0 d s.rx))
  | .hdr1 => accept (s.setRx (rxHdr1 s.role d s.rx))
  | .extLen => accept (s.setRx (rxExtLen d s.rx))
  | .maskKey => accept (s.setRx (rxMaskKey d s.rx))
  | .payload => accept ((s.emitRx (mask d s.rx.key s.rx.cnt s.rx.masked)).setRx (rxPayload s.rx))
  | .done => reject s
  | .error => reject s

/-- RX_PUSH (R140). -/
def execRxPush (data : Byte) (s : State) : Result := rxPushByte data s

/-- RX_ACK (R154): in DONE every RX register becomes 0; in any other state the command is not accepted. -/
def execRxAck (s : State) : Result :=
  match s.rx.state with
  | .done => accept s.clearRx
  | .hdr0 | .hdr1 | .extLen | .maskKey | .payload | .error => reject s

/-- RX_RESET (R155): every RX register becomes 0, in every state; `rx_out` keeps its bytes. -/
def execRxReset (s : State) : Result := accept s.clearRx

end Sys2Proof.Machine
end

