-- ==== Sys2Proof/Machine/Tx.lean ====
section
/-! DEFINITION. The TX unit, the frame encoder (spec 41_encoder.md): TX_START, TX_PUSH and TX_RESET. -/

namespace Sys2Proof.Machine

/-- The TX registers an accepted TX_START leaves (R113); TX_ERR keeps its value. -/
def txStarted (r : Role) (fin : Bool) (opcode : BitVec 4) (len : Word64) (key : MaskKey) (err : Option TxCause) :
    TxUnit where
  state := if len = 0 then .idle else .payload
  b0 := byte0 fin 0 opcode
  b1 := byte1 (txMasks r) (lengthField len)
  fin := fin
  rsv := 0
  opcode := opcode
  masked := txMasks r
  len7 := lengthField len
  len := len
  key := txKey r key
  cnt := 0
  err := err

/-- TX_START (R112, R113): the first check that fails refuses it; else the header is emitted and the frame's
fields are latched. -/
def execTxStart (fin : Bool) (rsv : BitVec 3) (opcode : BitVec 4) (len : Word64) (key : MaskKey) (s : State) :
    Result :=
  match txStartCheck s.tx.state fin rsv opcode len with
  | some c => refuseTx c s
  | none =>
    accept ((s.emitTx (headerBytes s.role fin opcode len key)).setTx
      (txStarted s.role fin opcode len key s.tx.err))

/-- The TX registers an accepted TX_PUSH leaves (R116, R117): one more byte counted, and IDLE on the last. -/
def txPushed (tx : TxUnit) : TxUnit :=
  let cnt := tx.cnt + 1
  { tx with cnt := cnt, state := if cnt = tx.len then .idle else tx.state }

/-- TX_PUSH (R116, R118): the masked byte is emitted; with no frame in progress the command is refused. -/
def execTxPush (data : Byte) (s : State) : Result :=
  match s.tx.state with
  | .idle => refuseTx .noFrame s
  | .payload => accept ((s.emitTx [mask data s.tx.key s.tx.cnt s.tx.masked]).setTx (txPushed s.tx))

/-- TX_RESET (R119): every TX register becomes 0, TX_ERR with them; `tx_out` keeps its bytes. -/
def execTxReset (s : State) : Result := accept s.clearTx

end Sys2Proof.Machine
end

