-- ==== Sys2Proof/Machine/Wire.lean ====
section
/-! DEFINITION. The instructions of the second encoding, byte 0 of a wire frame (spec 42_decoder.md, "Treatment of
each wire opcode", R156 to R162). RX takes a wire byte as RX_PUSH presents it, so each is one line over the
RX_PUSH of its byte: in HDR0 the byte is byte 0 of a frame (R141, R142). In any other RX_STATE the same byte
is whatever byte that state awaits (R24, R140); the step runs these instructions in HDR0 only. Log entry 6. -/

namespace Sys2Proof.Machine

/-- CONT: byte 0 of a Continuation frame, FIN 0 or 1 (R156). -/
def execCont (fin : Bool) (s : State) : Result := rxPushByte (byte0 fin 0 0x0) s

/-- TEXT: byte 0 of a Text frame, FIN 0 or 1 (R157). -/
def execText (fin : Bool) (s : State) : Result := rxPushByte (byte0 fin 0 0x1) s

/-- BIN: byte 0 of a Binary frame, FIN 0 or 1 (R158). -/
def execBin (fin : Bool) (s : State) : Result := rxPushByte (byte0 fin 0 0x2) s

/-- CLOSE: byte 0 of a Close frame, FIN 1 (R159). -/
def execClose (s : State) : Result := rxPushByte (byte0 true 0 0x8) s

/-- PING: byte 0 of a Ping frame, FIN 1 (R160). -/
def execPing (s : State) : Result := rxPushByte (byte0 true 0 0x9) s

/-- PONG: byte 0 of a Pong frame, FIN 1 (R161). -/
def execPong (s : State) : Result := rxPushByte (byte0 true 0 0xA) s

/-- RESERVED_OP_3: RX raises a ProtocolError at byte 0, RSV_NONZERO if RSV is not 0 and else OPCODE_RESERVED
(R142, R162, R203). -/
def execReservedOp3 (fin : Bool) (rsv : BitVec 3) (s : State) : Result := rxPushByte (byte0 fin rsv 0x3) s

/-- RESERVED_OP_4: RX raises a ProtocolError at byte 0, RSV_NONZERO if RSV is not 0 and else OPCODE_RESERVED
(R142, R162, R203). -/
def execReservedOp4 (fin : Bool) (rsv : BitVec 3) (s : State) : Result := rxPushByte (byte0 fin rsv 0x4) s

/-- RESERVED_OP_5: RX raises a ProtocolError at byte 0, RSV_NONZERO if RSV is not 0 and else OPCODE_RESERVED
(R142, R162, R203). -/
def execReservedOp5 (fin : Bool) (rsv : BitVec 3) (s : State) : Result := rxPushByte (byte0 fin rsv 0x5) s

/-- RESERVED_OP_6: RX raises a ProtocolError at byte 0, RSV_NONZERO if RSV is not 0 and else OPCODE_RESERVED
(R142, R162, R203). -/
def execReservedOp6 (fin : Bool) (rsv : BitVec 3) (s : State) : Result := rxPushByte (byte0 fin rsv 0x6) s

/-- RESERVED_OP_7: RX raises a ProtocolError at byte 0, RSV_NONZERO if RSV is not 0 and else OPCODE_RESERVED
(R142, R162, R203). -/
def execReservedOp7 (fin : Bool) (rsv : BitVec 3) (s : State) : Result := rxPushByte (byte0 fin rsv 0x7) s

/-- RESERVED_OP_B: RX raises a ProtocolError at byte 0, RSV_NONZERO if RSV is not 0 and else OPCODE_RESERVED
(R142, R162, R203). -/
def execReservedOpB (fin : Bool) (rsv : BitVec 3) (s : State) : Result := rxPushByte (byte0 fin rsv 0xB) s

/-- RESERVED_OP_C: RX raises a ProtocolError at byte 0, RSV_NONZERO if RSV is not 0 and else OPCODE_RESERVED
(R142, R162, R203). -/
def execReservedOpC (fin : Bool) (rsv : BitVec 3) (s : State) : Result := rxPushByte (byte0 fin rsv 0xC) s

/-- RESERVED_OP_D: RX raises a ProtocolError at byte 0, RSV_NONZERO if RSV is not 0 and else OPCODE_RESERVED
(R142, R162, R203). -/
def execReservedOpD (fin : Bool) (rsv : BitVec 3) (s : State) : Result := rxPushByte (byte0 fin rsv 0xD) s

/-- RESERVED_OP_E: RX raises a ProtocolError at byte 0, RSV_NONZERO if RSV is not 0 and else OPCODE_RESERVED
(R142, R162, R203). -/
def execReservedOpE (fin : Bool) (rsv : BitVec 3) (s : State) : Result := rxPushByte (byte0 fin rsv 0xE) s

/-- RESERVED_OP_F: RX raises a ProtocolError at byte 0, RSV_NONZERO if RSV is not 0 and else OPCODE_RESERVED
(R142, R162, R203). -/
def execReservedOpF (fin : Bool) (rsv : BitVec 3) (s : State) : Result := rxPushByte (byte0 fin rsv 0xF) s

end Sys2Proof.Machine
end

