-- ==== Sys2Proof/Machine/Dispatch.lean ====
section
/-! DEFINITION. What performing an instruction does: one arm per constructor of Instr, one meaning per arm. -/

namespace Sys2Proof.Machine

/-- Perform one instruction. -/
def exec (i : Instr) (s : State) : Host.Outcome State Fault Refusal :=
  match i with
  | .nop => Sys2Proof.Machine.execNop s
  | .rxPush data => Sys2Proof.Machine.execRxPush data s
  | .rxAck => Sys2Proof.Machine.execRxAck s
  | .rxReset => Sys2Proof.Machine.execRxReset s
  | .txStart fin rsv opcode len key => Sys2Proof.Machine.execTxStart fin rsv opcode len key s
  | .txPush data => Sys2Proof.Machine.execTxPush data s
  | .txReset => Sys2Proof.Machine.execTxReset s
  | .rdReg idx => Sys2Proof.Machine.execRdReg idx s
  | .reservedCode code rest => Sys2Proof.Machine.execReservedCode code rest s
  | .cont fin => Sys2Proof.Machine.execCont fin s
  | .text fin => Sys2Proof.Machine.execText fin s
  | .bin fin => Sys2Proof.Machine.execBin fin s
  | .close => Sys2Proof.Machine.execClose s
  | .ping => Sys2Proof.Machine.execPing s
  | .pong => Sys2Proof.Machine.execPong s
  | .reservedOp3 fin rsv => Sys2Proof.Machine.execReservedOp3 fin rsv s
  | .reservedOp4 fin rsv => Sys2Proof.Machine.execReservedOp4 fin rsv s
  | .reservedOp5 fin rsv => Sys2Proof.Machine.execReservedOp5 fin rsv s
  | .reservedOp6 fin rsv => Sys2Proof.Machine.execReservedOp6 fin rsv s
  | .reservedOp7 fin rsv => Sys2Proof.Machine.execReservedOp7 fin rsv s
  | .reservedOpB fin rsv => Sys2Proof.Machine.execReservedOpB fin rsv s
  | .reservedOpC fin rsv => Sys2Proof.Machine.execReservedOpC fin rsv s
  | .reservedOpD fin rsv => Sys2Proof.Machine.execReservedOpD fin rsv s
  | .reservedOpE fin rsv => Sys2Proof.Machine.execReservedOpE fin rsv s
  | .reservedOpF fin rsv => Sys2Proof.Machine.execReservedOpF fin rsv s

end Sys2Proof.Machine
end

