-- ==== Sys2Proof/Machine/Step.lean ====
section
/-! DEFINITION. One step of the machine: the host's next event, performed atomically (spec 00_scope.md R8;
20_memory.md R62, R65). Commands arrive on the command port and are not fetched from a memory. -/

namespace Sys2Proof.Machine

/-- One step. With nothing presented the block holds its state unchanged (R224). A command word is decoded and
performed, or rejected as an illegal word (R184, R214). Driving the strap and hardware reset are the host's
other two events (R230, R232). -/
def step (s : State) : Host.Outcome State Fault Refusal :=
  match s.port with
  | [] => .next s
  | .command c :: rest =>
    match decodeAt s.atFrameStart c with
    | .ok i => exec i (s.setPort rest)
    | .error e => rejectWord e (s.setPort rest)
  | .strap level :: rest => .next ((s.setPort rest).driveStrap level)
  | .hardReset :: rest => .next (s.setPort rest).hardReset

/-- `s` with the table's word presented so that the very next step performs exactly it (R53, R65, R80). -/
def State.withFetchWord (s : State) (nbits w : Nat) : State := s.present (tableWord nbits w)

end Sys2Proof.Machine
end

