-- ==== Sys2Proof/Machine/Asm.lean ====
section
/-! DEFINITION. The pseudo-instructions (spec 30_encoding.md R87) and the assembler syntax (R86): one line of text,
as a list of characters, to the instructions it stands for. What R86 leaves open of the text is log entry 10. -/

namespace Sys2Proof.Machine

/-! ### Pseudo-instructions (R87) -/

/-- `RX_FEED b0, …, bn`: RX_PUSH of each byte, in order. -/
def rxFeed (bs : List Byte) : List Instr := bs.map .rxPush

/-- `TX_FRAME fin, op, key, [p0, …]`: one TX_START with `rsv` = 0 and `len` the number of payload bytes, then
TX_PUSH of each. -/
def txFrame (fin : Bool) (op : BitVec 4) (key : MaskKey) (payload : List Byte) : List Instr :=
  .txStart fin 0 op (BitVec.ofNat 64 payload.length) key :: payload.map .txPush

/-- RD_REG of a register by name (R86). -/
def rdRegOf (g : Reg) : Instr := .rdReg g.index

/-- `RD_RXLEN`. -/
def rdRxLen : List Instr := [rdRegOf .rxLenLo, rdRegOf .rxLenHi]

/-- `RD_TXLEN`. -/
def rdTxLen : List Instr := [rdRegOf .txLenLo, rdRegOf .txLenHi]

/-- `RX_NEXT`. -/
def rxNext : List Instr := [.rxAck]

/-! ### Tokens (R86) -/

/-- The tokens of a line. -/
inductive Token where
  | word (cs : List Char)
  | comma
  | equals
  | openList
  | closeList
  deriving DecidableEq, Repr

/-- Letters, digits and the underscore make up names and numbers. -/
def isWordChar (c : Char) : Bool :=
  ('A' ≤ c && c ≤ 'Z') || ('a' ≤ c && c ≤ 'z') || ('0' ≤ c && c ≤ '9') || c = '_'

/-- The token of a punctuation character. -/
def punctuation (c : Char) : Option Token :=
  if c = ',' then some .comma
  else if c = '=' then some .equals
  else if c = '[' then some .openList
  else if c = ']' then some .closeList
  else none

/-- End the word being read, if there is one. -/
def endWord (w : List Char) (ts : List Token) : List Token := if w = [] then ts else .word w :: ts

/-- Split a line into tokens; `w` is the word being read. A comment starts with `;` (R86). -/
def tokens : List Char → List Char → Option (List Token)
  | [], w => some (endWord w [])
  | c :: cs, w =>
    if c = ';' then some (endWord w [])
    else if isWordChar c then tokens cs (w ++ [c])
    else if c = ' ' || c = '\t' then (tokens cs []).map (endWord w)
    else match punctuation c with
      | some t => (tokens cs []).map fun ts => endWord w (t :: ts)
      | none => none

/-! ### Numbers and names -/

/-- The value of a digit, capital or small. -/
def digitValue (c : Char) : Option Nat :=
  if '0' ≤ c && c ≤ '9' then some (c.toNat - 48)
  else if 'A' ≤ c && c ≤ 'F' then some (c.toNat - 55)
  else if 'a' ≤ c && c ≤ 'f' then some (c.toNat - 87)
  else none

/-- The number that digits of a base spell, after the value `acc` of those before them. -/
def digitsValue (base : Nat) : List Char → Nat → Option Nat
  | [], acc => some acc
  | c :: cs, acc =>
    match digitValue c with
    | some d => if d < base then digitsValue base cs (acc * base + d) else none
    | none => none

/-- A number: hexadecimal after `0x`, else decimal (R10, R86). -/
def number : List Char → Option Nat
  | [] => none
  | '0' :: 'x' :: d :: ds => digitsValue 16 (d :: ds) 0
  | d :: ds => digitsValue 10 (d :: ds) 0

/-- A number that fits in `n` bits. -/
def field (n : Nat) (w : List Char) : Option (BitVec n) :=
  match number w with
  | some v => if v < 2 ^ n then some (BitVec.ofNat n v) else none
  | none => none

/-- `fin=<0|1>`. -/
def finField (w : List Char) : Option Bool := (field 1 w).map fun b => b.getLsbD 0

/-- `key=<u32>`: the packed word, `KEY[0]` most significant (R82, R86). -/
def keyField (w : List Char) : Option MaskKey := (field 32 w).map MaskKey.unpack

/-- The six opcode names (R86). -/
def opcodeNames : List (List Char × BitVec 4) :=
  [("CONT".toList, 0x0), ("TEXT".toList, 0x1), ("BIN".toList, 0x2),
   ("CLOSE".toList, 0x8), ("PING".toList, 0x9), ("PONG".toList, 0xA)]

/-- `<opcode>`: a number 0..15 or one of the six names (R86). -/
def opcodeField (w : List Char) : Option (BitVec 4) := (opcodeNames.lookup w).or (field 4 w)

/-- The register names (R32). -/
def registerNames : List (List Char × Reg) :=
  [("CFG".toList, .cfg), ("RX_STATUS".toList, .rxStatus), ("RX_HDR".toList, .rxHdr),
   ("RX_LEN_LO".toList, .rxLenLo), ("RX_LEN_HI".toList, .rxLenHi), ("RX_KEY".toList, .rxKey),
   ("RX_CNT_LO".toList, .rxCntLo), ("RX_CNT_HI".toList, .rxCntHi), ("RX_ERR".toList, .rxErr),
   ("TX_STATUS".toList, .txStatus), ("TX_HDR".toList, .txHdr), ("TX_LEN_LO".toList, .txLenLo),
   ("TX_LEN_HI".toList, .txLenHi), ("TX_KEY".toList, .txKey), ("TX_CNT_LO".toList, .txCntLo),
   ("TX_CNT_HI".toList, .txCntHi), ("CMD_ERR".toList, .cmdErr)]

/-- `<idx|name>` (R86). -/
def indexField (w : List Char) : Option Byte := ((registerNames.lookup w).map Reg.index).or (field 8 w)

/-- A comma-separated list of bytes. -/
def byteList : List Token → Option (List Byte)
  | [.word w] => (field 8 w).map fun b => [b]
  | .word w :: .comma :: ts =>
    match field 8 w, byteList ts with
    | some b, some bs => some (b :: bs)
    | _, _ => none
  | _ => none

/-- The payload list of TX_FRAME, `[p0, …]`, which may be empty. -/
def payloadList : List Token → Option (List Byte)
  | [.openList, .closeList] => some []
  | .openList :: ts => if ts.getLast? = some .closeList then byteList ts.dropLast else none
  | _ => none

/-! ### Lines -/

/-- TX_START's operands, in the order of R86. -/
def txStartLine (ts : List Token) : Option (List Instr) :=
  match ts with
  | [.word fin, .equals, .word f, .comma, .word rsv, .equals, .word r, .comma, .word op, .equals, .word o, .comma,
     .word len, .equals, .word n, .comma, .word key, .equals, .word k] =>
    if fin = "fin".toList && rsv = "rsv".toList && op = "op".toList && len = "len".toList && key = "key".toList then
      match finField f, field 3 r, opcodeField o, field 64 n, keyField k with
      | some fv, some rv, some ov, some nv, some kv => some [.txStart fv rv ov nv kv]
      | _, _, _, _, _ => none
    else none
  | _ => none

/-- TX_FRAME's operands: `fin, op, key, [p0, …]` (R87). -/
def txFrameLine (ts : List Token) : Option (List Instr) :=
  match ts with
  | .word f :: .comma :: .word o :: .comma :: .word k :: .comma :: ps =>
    match finField f, opcodeField o, keyField k, payloadList ps with
    | some fv, some ov, some kv, some pv => some (txFrame fv ov kv pv)
    | _, _, _, _ => none
  | _ => none

/-- The line of a command or pseudo-instruction without operands. -/
def bareLine (is : List Instr) (ts : List Token) : Option (List Instr) := if ts = [] then some is else none

/-- The line of a command with one operand. -/
def operandLine (operand : List Char → Option Byte) (i : Byte → Instr) (ts : List Token) : Option (List Instr) :=
  match ts with
  | [.word w] => (operand w).map fun b => [i b]
  | _ => none

/-- The mnemonics and pseudo-instruction names, each with the reading of its operands (R86, R87). -/
def lineForms : List (List Char × (List Token → Option (List Instr))) :=
  [("NOP".toList, bareLine [.nop]),
   ("RX_PUSH".toList, operandLine (field 8) .rxPush),
   ("RX_ACK".toList, bareLine [.rxAck]),
   ("RX_RESET".toList, bareLine [.rxReset]),
   ("TX_START".toList, txStartLine),
   ("TX_PUSH".toList, operandLine (field 8) .txPush),
   ("TX_RESET".toList, bareLine [.txReset]),
   ("RD_REG".toList, operandLine indexField .rdReg),
   ("RX_FEED".toList, fun ts => (byteList ts).map rxFeed),
   ("TX_FRAME".toList, txFrameLine),
   ("RD_RXLEN".toList, bareLine rdRxLen),
   ("RD_TXLEN".toList, bareLine rdTxLen),
   ("RX_NEXT".toList, bareLine rxNext)]

/-- The instructions one line of assembler text stands for (R86, R87); none for text that is no line, and the
empty list for a line that holds at most a comment. -/
def assembleLine (cs : List Char) : Option (List Instr) :=
  match tokens cs [] with
  | none => none
  | some [] => some []
  | some (.word m :: ts) =>
    match lineForms.lookup m with
    | some form => form ts
    | none => none
  | some _ => none

end Sys2Proof.Machine
end

