-- ==== Sys2Proof/Machine/Frame.lean ====
section
/-! DEFINITION. Frames as the spec's own words give them, apart from the units that encode and decode them: the
byte string of a frame (spec 30_encoding.md R70 to R79, 41_encoder.md R121) in plain arithmetic, and what a
valid frame is to a receiver (R89). -/

namespace Sys2Proof.Machine

/-- A frame: the fields of R14, with the unmasked payload; its length is the payload's. -/
structure Frame where
  fin : Bool
  rsv : BitVec 3
  opcode : BitVec 4
  masked : Bool
  key : MaskKey
  payload : List Byte
  deriving DecidableEq, Repr

/-- The lengthField of the minimal form (R75). -/
def minimalLen7 (n : Nat) : Nat := if n ≤ 125 then n else if n ≤ 65535 then 126 else 127

/-- The `k` low bytes of `n`, most significant first (R11, R54). -/
def beBytes : Nat → Nat → List Byte
  | 0, _ => []
  | k + 1, n => BitVec.ofNat 8 (n / 256 ^ k) :: beBytes k n

/-- The number that bytes spell, most significant first (R54, R76). -/
def beValue (bs : List Byte) : Nat := bs.foldl (fun n b => n * 256 + b.toNat) 0

/-- The extended length bytes of the minimal form (R75). -/
def minimalExt (n : Nat) : List Byte := if n ≤ 125 then [] else if n ≤ 65535 then beBytes 2 n else beBytes 8 n

/-- `[MASK(p[i], K, i, m) for i in n ..]`: payload bytes masked or unmasked, the first at index `n` (R79, R100). -/
def maskBytes (k : MaskKey) (m : Bool) : Nat → List Byte → List Byte
  | _, [] => []
  | n, b :: bs => mask b k (BitVec.ofNat 64 n) m :: maskBytes k m (n + 1) bs

/-- The wire bytes of a frame, `[b0, b1] ++ ext ++ (m ? K : []) ++ masked payload` (R70, R71, R75, R78, R79). -/
def Frame.wire (f : Frame) : List Byte :=
  BitVec.ofNat 8 (f.fin.toNat * 128 + f.rsv.toNat * 16 + f.opcode.toNat)
    :: BitVec.ofNat 8 (f.masked.toNat * 128 + minimalLen7 f.payload.length)
    :: (minimalExt f.payload.length ++ (if f.masked then keyBytes f.key else []) ++ maskBytes f.key f.masked 0 f.payload)

/-- The frames R121 is about: `rsv = 0`, a defined opcode, a length below 2^63, and the control invariants. -/
structure Frame.Encodable (f : Frame) : Prop where
  rsv_zero : f.rsv = 0
  opcode_defined : definedOpcode f.opcode = true
  length_bound : f.payload.length < 2 ^ 63
  control_final : isControl f.opcode = true → f.fin = true
  control_short : isControl f.opcode = true → f.payload.length ≤ 125

/-- The frame a TX of role `r` sends for `f`: `masked` and the key are the role's (R114). -/
def Frame.sentBy (f : Frame) (r : Role) : Frame := { f with masked := txMasks r, key := txKey r f.key }

/-! ### Valid frames (R89) -/

/-- The payload length that byte 1 and the extended length declare (R75, R76, R85). -/
def declaredLen (b1 : Byte) (ext : List Byte) : Nat :=
  if (len7Of b1).toNat ≤ 125 then (len7Of b1).toNat else beValue ext

/-- How many extended-length bytes follow byte 1 (R71, R85). -/
def extWidth (b1 : Byte) : Nat :=
  if (len7Of b1).toNat = 126 then 2 else if (len7Of b1).toNat = 127 then 8 else 0

/-- The nine conditions of R89 on the parts of a byte string, for a receiver of role `r`. -/
structure ValidFrame (r : Role) (b0 b1 : Byte) (ext key payload : List Byte) : Prop where
  rsv_zero : b0.rsv = 0
  opcode_defined : definedOpcode b0.opcode = true
  control_final : isControl b0.opcode = true → b0.fin = true
  mask_by_role : maskedOf b1 = true ↔ r = .server
  control_short : isControl b0.opcode = true → (len7Of b1).toNat ≤ 125
  ext_width : ext.length = extWidth b1
  ext_minimal : (extWidth b1 = 2 → 126 ≤ beValue ext) ∧ (extWidth b1 = 8 → 65536 ≤ beValue ext)
  ext_msb : extWidth b1 = 8 → beValue ext < 2 ^ 63
  key_width : key.length = if maskedOf b1 then 4 else 0
  payload_length : payload.length = declaredLen b1 ext

/-- The bytes of a frame from its parts (R70, R71, R76, R78, R79). -/
def frameBytes (b0 b1 : Byte) (ext key payload : List Byte) : List Byte := b0 :: b1 :: (ext ++ key ++ payload)

/-- A byte string is one valid frame to a receiver of role `r` (R89). -/
def IsValidFrame (r : Role) (bs : List Byte) : Prop :=
  ∃ b0 b1 ext key payload, bs = frameBytes b0 b1 ext key payload ∧ ValidFrame r b0 b1 ext key payload

/-- The key four wire bytes carry; the zero key when none are carried (R23, R78). -/
def keyOfBytes : List Byte → MaskKey
  | [a, b, c, d] => ⟨a, b, c, d⟩
  | _ => MaskKey.zero

end Sys2Proof.Machine
end

