-- ==== Sys2Proof/Machine/Sequence.lean ====
section
/-! DEFINITION. Several commands one after the other on one instance (spec 20_memory.md R62), and several
instances side by side (60_exceptions.md R222). -/

namespace Sys2Proof.Machine

/-- The sequential composition of instructions (R62). -/
def execAll : List Instr → State → Result
  | [], s => .next s
  | i :: is, s =>
    match exec i s with
    | .next t => execAll is t
    | .fault r => .fault r
    | .refused r => .refused r

/-- One step of instance `k` of several (R222): only its own state takes part. The list's length is the instance
count, a model argument (R9); there is nothing to step where no instance has that number. Log entry 9. -/
def stepInstance (k : Nat) (system : List State) : Host.Outcome (List State) Fault Refusal :=
  match system[k]? with
  | none => .next system
  | some s =>
    match step s with
    | .next t => .next (system.set k t)
    | .fault r => .fault r
    | .refused r => .refused r

end Sys2Proof.Machine
end

