-- ==== Sys2Proof/Safety.lean ====
section
/-! DEFINITION. What the registers of a reachable state satisfy, in the terms claims use: the counter bounds of
spec 10_state.md R25 and R29, the validity of header fields of R26, the legal values of R33, and the error
records of R201 to R206, per RX_STATE. They are invariants of the step, not checks the block makes. -/

namespace Sys2Proof.Machine

/-! ### The RX unit -/

/-- The fields extracted from byte 0 are that byte's (R23, R141). -/
def Byte0Fields (rx : RxUnit) : Prop :=
  rx.fin = rx.b0.fin ∧ rx.rsv = rx.b0.rsv ∧ rx.opcode = rx.b0.opcode

/-- The fields extracted from byte 1 are that byte's (R23, R143). -/
def Byte1Fields (rx : RxUnit) : Prop := rx.masked = maskedOf rx.b1 ∧ rx.len7 = len7Of rx.b1

/-- No error is recorded (R23, R46). -/
def NoRxError (rx : RxUnit) : Prop := rx.errCause = none ∧ rx.errPos = 0 ∧ rx.errByte = 0

/-- No payload byte and no key byte has been consumed (R23). -/
def NoKeyOrPayload (rx : RxUnit) : Prop := rx.keyIdx = 0 ∧ rx.key = MaskKey.zero ∧ rx.cnt = 0

/-- No length has been taken (R23, R26). -/
def NoLength (rx : RxUnit) : Prop := rx.extNeed = 0 ∧ rx.extIdx = 0 ∧ rx.len = 0

/-- Bytes 0 and 1 are captured and passed their checks (R142, R144). -/
def HeaderAccepted (r : Role) (rx : RxUnit) : Prop :=
  Byte0Fields rx ∧ Byte1Fields rx ∧ byte0Check rx.b0 = none ∧ byte1Check r rx.opcode rx.b1 = none

/-- The length is final: the minimal form of its value, below 2^63, and every extended byte consumed
(R26, R145, R147, R148). -/
def LengthFinal (rx : RxUnit) : Prop :=
  rx.extIdx = rx.extNeed ∧
    ((rx.extNeed = 0 ∧ rx.len7 ≤ 125#7 ∧ rx.len = rx.len7.setWidth 64) ∨
     (rx.extNeed = 2 ∧ rx.len7 = 126 ∧ 126#64 ≤ rx.len ∧ rx.len ≤ 65535#64) ∨
     (rx.extNeed = 8 ∧ rx.len7 = 127 ∧ 65536#64 ≤ rx.len ∧ rx.len ≤ Config.maxLen))

/-- `RX_HPOS` counts the header bytes consumed: 2, the extended bytes and the key bytes (R23, R77). -/
def HposCounts (rx : RxUnit) : Prop := rx.hpos.toNat = 2 + rx.extIdx.toNat + rx.keyIdx.toNat

/-- Every key byte the frame carries is consumed, and a frame that carries none leaves the key at 0 (R23, R26). -/
def KeyFinal (rx : RxUnit) : Prop :=
  rx.keyIdx = (if rx.masked then 4 else 0) ∧ (rx.masked = false → rx.key = MaskKey.zero)

/-- The extended bytes consumed so far, and the accumulation they left (R145 to R147): in the 64-bit form the
first byte's bit 7 was 0. -/
def LengthPartial (rx : RxUnit) : Prop :=
  (rx.extNeed = 2 ∧ rx.len7 = 126 ∧ rx.extIdx.toNat < 2 ∧ rx.len.toNat < 256 ^ rx.extIdx.toNat) ∨
  (rx.extNeed = 8 ∧ rx.len7 = 127 ∧ rx.extIdx.toNat < 8 ∧ 2 * rx.len.toNat < max 2 (256 ^ rx.extIdx.toNat))

/-- The record of a ProtocolError: for each cause the position it is raised at, the byte, and the condition
that byte meets (R201, R203 to R205). -/
def ErrorRecorded (r : Role) (rx : RxUnit) : Prop :=
  match rx.errCause with
  | none => False
  | some c =>
    match c with
    | .rsvNonzero | .opcodeReserved | .controlFragmented =>
      rx.errPos = 0 ∧ rx.hpos = 1 ∧ rx.errByte = rx.b0 ∧ byte0Check rx.b0 = some c ∧
        rx.b1 = 0 ∧ Byte1Fields rx ∧ NoLength rx
    | .unmasked | .masked | .controlTooLong =>
      rx.errPos = 1 ∧ rx.hpos = 2 ∧ rx.errByte = rx.b1 ∧ Byte1Fields rx ∧ NoLength rx ∧
        byte0Check rx.b0 = none ∧ byte1Check r rx.opcode rx.b1 = some c
    | .lenNonminimal =>
      HeaderAccepted r rx ∧ rx.extIdx = rx.extNeed ∧ rx.errByte = rx.len.setWidth 8 ∧
        ((rx.errPos = 3 ∧ rx.hpos = 4 ∧ rx.extNeed = 2 ∧ rx.len < 126#64) ∨
         (rx.errPos = 9 ∧ rx.hpos = 10 ∧ rx.extNeed = 8 ∧ rx.len < 65536#64))
    | .lenMsbSet =>
      HeaderAccepted r rx ∧ rx.errPos = 2 ∧ rx.hpos = 3 ∧ rx.extNeed = 8 ∧ rx.extIdx = 1 ∧
        rx.errByte.getLsbD 7 = true ∧ rx.len = rx.errByte.setWidth 64

/-- What the RX registers satisfy in each RX_STATE, in a block of role `r`. -/
def RxInv (r : Role) (rx : RxUnit) : Prop :=
  match rx.state with
  | .hdr0 => rx = RxUnit.cleared
  | .hdr1 =>
    rx = { RxUnit.cleared with
      state := .hdr1, hpos := 1, b0 := rx.b0, fin := rx.b0.fin, opcode := rx.b0.opcode } ∧
      byte0Check rx.b0 = none
  | .extLen =>
    HeaderAccepted r rx ∧ NoKeyOrPayload rx ∧ NoRxError rx ∧ LengthPartial rx ∧ HposCounts rx
  | .maskKey =>
    HeaderAccepted r rx ∧ LengthFinal rx ∧ NoRxError rx ∧ HposCounts rx ∧ rx.masked = true ∧ rx.keyIdx < 4#3 ∧
      rx.cnt = 0
  | .payload =>
    HeaderAccepted r rx ∧ LengthFinal rx ∧ NoRxError rx ∧ HposCounts rx ∧ KeyFinal rx ∧
      rx.cnt < rx.len
  | .done =>
    HeaderAccepted r rx ∧ LengthFinal rx ∧ NoRxError rx ∧ HposCounts rx ∧ KeyFinal rx ∧
      rx.cnt = rx.len
  | .error => Byte0Fields rx ∧ NoKeyOrPayload rx ∧ ErrorRecorded r rx

/-! ### The TX unit -/

/-- The frame fields of TX are those of an accepted TX_START in a block of role `r` (R112 to R114). -/
def TxFrameLatched (r : Role) (tx : TxUnit) : Prop :=
  tx.b0 = byte0 tx.fin 0 tx.opcode ∧ tx.b1 = byte1 tx.masked tx.len7 ∧ tx.rsv = 0 ∧
    tx.masked = txMasks r ∧ tx.len7 = lengthField tx.len ∧ (tx.masked = false → tx.key = MaskKey.zero) ∧
    definedOpcode tx.opcode = true ∧ (isControl tx.opcode = true → tx.fin = true ∧ tx.len ≤ 125#64)

/-- What the TX registers satisfy (R28, R29): they are at their cleared values but for TX_ERR, or they hold an
accepted frame; payload bytes are owed exactly while `TX_CNT` is below `TX_LEN`. -/
def TxInv (r : Role) (tx : TxUnit) : Prop :=
  (tx = { TxUnit.cleared with err := tx.err } ∨ TxFrameLatched r tx) ∧
    tx.cnt ≤ tx.len ∧ tx.len ≤ Config.maxLen ∧ (tx.state = .payload ↔ tx.cnt < tx.len)

/-! ### The command error register -/

/-- `CMD_ERR` is 0, or records an illegal command: the CODE fits the reason (R30, R214). -/
def CmdErrInv (e : CmdErr) : Prop :=
  e = CmdErr.cleared ∨
    (e.illegal = true ∧
      match e.ireason with
      | none => False
      | some .reservedCode => 8#4 ≤ e.icode
      | some .reservedBit => e.icode < 8#4
      | some .unmappedIndex => e.icode = 7)

/-! ### The machine -/

/-- The invariant of the machine. -/
structure Inv (s : State) : Prop where
  rx : RxInv s.role s.rx
  tx : TxInv s.role s.tx
  cmdErr : CmdErrInv s.cmdErr

end Sys2Proof.Machine
end

