-- ==== Sys2Proof/Certificates/Slice0/Obligations.lean ====
section
/-! DEFINITION. The statements for the provers, from the numbered rules of the spec. In the statements about one
instruction the next state is written out whole: every field that is not written there is unchanged, which is
the instruction's frame. The fields `port` (the host's events still to come) and `responses` (the responses
returned, R84) are the model's own, by log entries 3 and 4. -/

open Sys2Proof Sys2Proof.Machine

/-! ### Encodings -/

/-- Decode and encode agree on every well-formed instruction of both encodings. -/
def Obligations.DecodeOfEncode : Prop :=
  ∀ i : Instr, i.wellFormed = true → decode (encode i) = some i

/-- Words that decode are the encoder's words for what they decode to: no bit of a word is dropped. -/
def Obligations.EncodeOfDecode : Prop :=
  ∀ (e : Encoded) (i : Instr), decode e = some i → i.wellFormed = true ∧ encode i = e

/-- The decoders read exactly the rows of the opcode table: what decodes matches its own row, and what matches
a row decodes to an instruction of that row (so no two rows overlap). -/
def Obligations.DecodersFollowTheOpcodeTable : Prop :=
  (∀ (e : Encoded) (i : Instr), decode e = some i → i.row.matches e = true) ∧
  (∀ (e : Encoded) (j : Instr), j.row.matches e = true → ∃ i, decode e = some i ∧ i.row = j.row)

/-- Words of the spec's programs P1, P2 and P4 and bytes of its rules decode to what they stand for. -/
def Obligations.SpecWordsDecode : Prop :=
  decode (.command 0x00000000000000000000000000005901#128) = some (.rxPush 0x59) ∧
  decode (.command 0x00000000000000030102030400000104#128) = some (.txStart false 0 1 3 ⟨1, 2, 3, 4⟩) ∧
  decode (.command 0x0000000000000000A0B0C0D000000914#128) = some (.txStart true 0 9 0 ⟨0xA0, 0xB0, 0xC0, 0xD0⟩) ∧
  decode (.command 0x00000000000000000000000000001107#128) = some (.rdReg 0x11) ∧
  decode (.command 0x00000000000000000000000000000002#128) = some .rxAck ∧
  decode (.command 0x00000000000000000000000000018101#128) = none ∧
  decode (.frameByte0 0x81) = some (.text true) ∧
  decode (.frameByte0 0x02) = some (.bin false) ∧
  decode (.frameByte0 0x8A) = some .pong ∧
  decode (.frameByte0 0xF3) = some (.reservedOp3 true 7) ∧
  decode (.frameByte0 0x09) = none

/-! ### The step -/

/-- A step performs the instruction whose words are presented: a command's word, or (in HDR0) an RX_PUSH of a
frame's byte 0. The port moves past the word; the rest is the instruction's own effect. -/
def Obligations.StepRunsThePresentedInstruction : Prop :=
  ∀ (i : Instr) (s : State) (rest : List HostEvent), i.wellFormed = true →
    s.port = .command (encode i).presented :: rest →
    ((encode i).isFrameByte0 = true → s.rx.state = .hdr0) →
      step s = exec i { s with port := rest }

/-- A byte 0 that is an instruction does what RX_PUSH of that byte does, in every state. -/
def Obligations.FrameByte0IsItsRxPush : Prop :=
  ∀ (b : Byte) (i : Instr), decode (.frameByte0 b) = some i → ∀ s : State, exec i s = exec (.rxPush b) s

/-- The word a table row's bits give is the very next instruction the step performs. The rest of the state is
as it was, but that RX is brought to a frame's start when the word is a frame's byte 0. -/
def Obligations.FetchWordIsPerformedNext : Prop :=
  ∀ (s : State) (nbits w : Nat) (i : Instr), decodeTableWord nbits w = some i →
    (s.rx.state = .hdr0 ∨ (tableWord nbits w).isFrameByte0 = false →
      step (s.withFetchWord nbits w) = exec i s) ∧
    ((tableWord nbits w).isFrameByte0 = true → s.rx.state ≠ .hdr0 →
      step (s.withFetchWord nbits w) = exec i { s with rx := RxUnit.cleared })

/-- Every step answers a next state: no event, word or byte makes the machine stop. -/
def Obligations.EveryStepCompletes : Prop := ∀ s : State, ∃ t, step s = .next t

/-- Between events the block holds its state; the strap's level reaches ROLE only through hardware reset. -/
def Obligations.EventsOtherThanCommands : Prop :=
  ∀ (s : State) (rest : List HostEvent),
    (s.port = [] → step s = .next s) ∧
    (∀ level, s.port = .strap level :: rest → step s = .next { s with port := rest, strap := level }) ∧
    (s.port = .hardReset :: rest →
      step s = .next
        { s with
          port := rest, role := s.strap, rx := RxUnit.cleared, tx := TxUnit.cleared, cmdErr := CmdErr.cleared })

/-! ### Reset -/

/-- After power-on reset every register of the map reads 0 but CFG, which shows ROLE, and NEED_MORE, which is
computed; the streams are empty. -/
def Obligations.PowerOnResetValues : Prop :=
  ∀ r : Role,
    (State.resetAs r).role = r ∧
    (State.resetAs r).rx.state = .hdr0 ∧ (State.resetAs r).tx.state = .idle ∧
    (State.resetAs r).rxOut = [] ∧ (State.resetAs r).txOut = [] ∧
    Reg.value .cfg (State.resetAs r) = (if r = .server then 1 else 0) ∧
    Reg.value .rxStatus (State.resetAs r) = 0x00000008 ∧
    (∀ g : Reg, g ≠ .cfg → g ≠ .rxStatus → Reg.value g (State.resetAs r) = 0)

/-- A hardware reset takes ROLE from the strap and leaves every other register at 0, RX in HDR0 and TX in IDLE. The
streams are empty at power-on, and a later reset keeps the bytes already emitted. -/
def Obligations.HardwareResetEffect : Prop :=
  (∀ (s : State) (rest : List HostEvent), s.port = .hardReset :: rest →
    ∃ t, step s = .next t ∧ t.role = s.strap ∧ t.rx.state = .hdr0 ∧ t.tx.state = .idle ∧
      t.rxOut = s.rxOut ∧ t.txOut = s.txOut ∧
      Reg.value .cfg t = (if s.strap = .server then 1 else 0) ∧ Reg.value .rxStatus t = 0x00000008 ∧
      ∀ g : Reg, g ≠ .cfg → g ≠ .rxStatus → g.value t = 0) ∧
  (∀ r : Role, (State.resetAs r).rxOut = [] ∧ (State.resetAs r).txOut = [])

/-- ROLE changes at a hardware reset only. -/
def Obligations.RoleHeldBetweenResets : Prop :=
  ∀ s t : State, step s = .next t → (∀ rest, s.port ≠ .hardReset :: rest) → t.role = s.role

/-! ### RX_PUSH, arm by arm -/

/-- RX_PUSH in HDR0. -/
def Obligations.RxPushByteZero : Prop :=
  ∀ (d : Byte) (s : State), s.rx.state = .hdr0 →
    let captured : RxUnit :=
      { s.rx with
        b0 := d, fin := d.getLsbD 7, rsv := d.extractLsb' 4 3, opcode := d.extractLsb' 0 4, hpos := 1 }
    let answers (rx : RxUnit) : Prop :=
      exec (.rxPush d) s = .next { s with rx := rx, responses := s.responses ++ [⟨true, 0⟩] } ∧
      rx.isControlFrame = d.getLsbD 3
    let raises (c : ProtocolCause) : Prop :=
      answers { captured with errCause := some c, errPos := s.rx.hpos, errByte := d, state := .error }
    let defined : Prop := d.extractLsb' 0 4 ∈ [0x0#4, 0x1#4, 0x2#4, 0x8#4, 0x9#4, 0xA#4]
    (d.extractLsb' 4 3 ≠ 0 → raises .rsvNonzero) ∧
    (d.extractLsb' 4 3 = 0 → ¬ defined → raises .opcodeReserved) ∧
    (d.extractLsb' 4 3 = 0 → defined → d.getLsbD 3 = true → d.getLsbD 7 = false → raises .controlFragmented) ∧
    (d.extractLsb' 4 3 = 0 → defined → (d.getLsbD 3 = false ∨ d.getLsbD 7 = true) →
      answers { captured with state := .hdr1 })

/-- Byte 0 of a data frame, FIN 0 or 1, is taken: the next byte is header byte 1. -/
def Obligations.DataFrameByteZero : Prop :=
  ∀ (fin : Bool) (s : State), s.rx.state = .hdr0 →
    let taken (i : Instr) (op : BitVec 4) : Prop :=
      exec i s = .next
        { s with
          rx := { s.rx with
            b0 := BitVec.ofNat 8 (fin.toNat * 128 + op.toNat), fin := fin, rsv := 0, opcode := op, hpos := 1,
            state := .hdr1 }
          responses := s.responses ++ [⟨true, 0⟩] }
    taken (.cont fin) 0x0 ∧ taken (.text fin) 0x1 ∧ taken (.bin fin) 0x2

/-- Byte 0 of a control frame, FIN 1, is taken. -/
def Obligations.ControlFrameByteZero : Prop :=
  ∀ s : State, s.rx.state = .hdr0 →
    let taken (i : Instr) (op : BitVec 4) : Prop :=
      exec i s = .next
        { s with
          rx := { s.rx with
            b0 := BitVec.ofNat 8 (128 + op.toNat), fin := true, rsv := 0, opcode := op, hpos := 1, state := .hdr1 }
          responses := s.responses ++ [⟨true, 0⟩] }
    taken .close 0x8 ∧ taken .ping 0x9 ∧ taken .pong 0xA

/-- Byte 0 with a reserved opcode: RX raises a ProtocolError and records it. RSV_NONZERO comes first. -/
def Obligations.ReservedOpcodeByteZero : Prop :=
  ∀ (fin : Bool) (rsv : BitVec 3) (s : State), s.rx.state = .hdr0 →
    let raised (i : Instr) (op : BitVec 4) : Prop :=
      let b := BitVec.ofNat 8 (fin.toNat * 128 + rsv.toNat * 16 + op.toNat)
      exec i s = .next
        { s with
          rx := { s.rx with
            b0 := b, fin := fin, rsv := rsv, opcode := op, hpos := 1, state := .error,
            errCause := some (if rsv = 0 then .opcodeReserved else .rsvNonzero), errPos := s.rx.hpos, errByte := b }
          responses := s.responses ++ [⟨true, 0⟩] }
    raised (.reservedOp3 fin rsv) 0x3 ∧ raised (.reservedOp4 fin rsv) 0x4 ∧ raised (.reservedOp5 fin rsv) 0x5 ∧
    raised (.reservedOp6 fin rsv) 0x6 ∧ raised (.reservedOp7 fin rsv) 0x7 ∧ raised (.reservedOpB fin rsv) 0xB ∧
    raised (.reservedOpC fin rsv) 0xC ∧ raised (.reservedOpD fin rsv) 0xD ∧ raised (.reservedOpE fin rsv) 0xE ∧
    raised (.reservedOpF fin rsv) 0xF

/-- RX_PUSH in HDR1. -/
def Obligations.RxPushByteOne : Prop :=
  ∀ (d : Byte) (s : State), s.rx.state = .hdr1 →
    let l7 : Nat := (d.extractLsb' 0 7).toNat
    let m : Bool := d.getLsbD 7
    let captured : RxUnit := { s.rx with b1 := d, masked := m, len7 := d.extractLsb' 0 7, hpos := 2 }
    let answers (rx : RxUnit) : Prop :=
      exec (.rxPush d) s = .next { s with rx := rx, responses := s.responses ++ [⟨true, 0⟩] }
    let raises (c : ProtocolCause) : Prop :=
      answers { captured with errCause := some c, errPos := s.rx.hpos, errByte := d, state := .error }
    let maskRight : Prop := m = true ↔ s.role = .server
    let tooLong : Prop := s.rx.opcode.getLsbD 3 = true ∧ 125 < l7
    (s.role = .server → m = false → raises .unmasked) ∧
    (s.role = .client → m = true → raises .masked) ∧
    (maskRight → tooLong → raises .controlTooLong) ∧
    (maskRight → ¬ tooLong → l7 ≤ 125 →
      answers { captured with
        len := BitVec.ofNat 64 l7, extNeed := 0,
        state := if m = true then .maskKey else if l7 = 0 then .done else .payload }) ∧
    (maskRight → ¬ tooLong → l7 = 126 →
      answers { captured with extNeed := 2, extIdx := 0, len := 0, state := .extLen }) ∧
    (maskRight → ¬ tooLong → l7 = 127 →
      answers { captured with extNeed := 8, extIdx := 0, len := 0, state := .extLen })

/-- RX_PUSH in EXTLEN: the big-endian accumulation, the range check on the first byte of a 64-bit length, the
minimal-width check on the last byte, and the state after the length. -/
def Obligations.RxPushExtendedLength : Prop :=
  ∀ (d : Byte) (s : State), s.rx.state = .extLen →
    let len : Word64 := s.rx.len <<< 8 ||| d.setWidth 64
    let counted : RxUnit :=
      { s.rx with len := len, extIdx := s.rx.extIdx + 1, hpos := s.rx.hpos + 1 }
    let answers (rx : RxUnit) : Prop :=
      exec (.rxPush d) s = .next { s with rx := rx, responses := s.responses ++ [⟨true, 0⟩] }
    let raises (c : ProtocolCause) : Prop :=
      answers { counted with errCause := some c, errPos := s.rx.hpos, errByte := d, state := .error }
    let msb : Prop := s.rx.extNeed = 8 ∧ s.rx.extIdx = 0 ∧ d.getLsbD 7 = true
    let last : Prop := s.rx.extIdx + 1 = s.rx.extNeed
    let overWide : Prop :=
      (s.rx.extNeed = 2 ∧ len.toNat < 126) ∨ (s.rx.extNeed = 8 ∧ len.toNat < 65536)
    (msb → raises .lenMsbSet) ∧
    (¬ msb → ¬ last → answers counted) ∧
    (¬ msb → last → overWide → raises .lenNonminimal) ∧
    (¬ msb → last → ¬ overWide →
      answers { counted with
        state := if s.rx.masked = true then .maskKey else if len = 0 then .done else .payload })

/-- After the last extended byte of a frame, in a state that keeps the invariant, the length is at least 126: the
next state is MASKKEY or PAYLOAD, as MASK says, and never DONE. -/
def Obligations.ExtendedLengthComplete : Prop :=
  ∀ (d : Byte) (s t : State), Inv s → s.rx.state = .extLen → exec (.rxPush d) s = .next t →
    t.rx.extIdx = t.rx.extNeed → t.rx.state ≠ .error →
      126#64 ≤ t.rx.len ∧ t.rx.state = (if t.rx.masked = true then .maskKey else .payload)

/-- RX_PUSH in MASKKEY: the byte becomes key byte number RX_KEY_IDX; the fourth ends the header. -/
def Obligations.RxPushMaskKey : Prop :=
  ∀ (d : Byte) (s : State), s.rx.state = .maskKey →
    let captured (key : MaskKey) : RxUnit :=
      { s.rx with key := key, keyIdx := s.rx.keyIdx + 1, hpos := s.rx.hpos + 1 }
    let answers (rx : RxUnit) : Prop :=
      exec (.rxPush d) s = .next { s with rx := rx, responses := s.responses ++ [⟨true, 0⟩] }
    (s.rx.keyIdx = 0 → answers (captured { s.rx.key with k0 := d })) ∧
    (s.rx.keyIdx = 1 → answers (captured { s.rx.key with k1 := d })) ∧
    (s.rx.keyIdx = 2 → answers (captured { s.rx.key with k2 := d })) ∧
    (s.rx.keyIdx = 3 →
      answers { captured { s.rx.key with k3 := d } with
        state := if s.rx.len = 0 then .done else .payload })

/-- RX_PUSH in PAYLOAD: the byte is unmasked with its lane's key byte and emitted; the last ends the frame. -/
def Obligations.RxPushPayload : Prop :=
  ∀ (d : Byte) (s : State), s.rx.state = .payload →
    let lane : Byte :=
      if s.rx.cnt.toNat % 4 = 0 then s.rx.key.k0 else if s.rx.cnt.toNat % 4 = 1 then s.rx.key.k1
      else if s.rx.cnt.toNat % 4 = 2 then s.rx.key.k2 else s.rx.key.k3
    exec (.rxPush d) s = .next
      { s with
        rx := { s.rx with
          cnt := s.rx.cnt + 1, state := if s.rx.cnt + 1 = s.rx.len then .done else .payload }
        rxOut := s.rxOut ++ [if s.rx.masked = true then d ^^^ lane else d]
        responses := s.responses ++ [⟨true, 0⟩] }

/-- RX_PUSH in DONE and in ERROR: the byte is not consumed and no state changes. -/
def Obligations.RxPushNotConsumed : Prop :=
  ∀ (d : Byte) (s : State), s.rx.state = .done ∨ s.rx.state = .error →
    exec (.rxPush d) s = .next { s with responses := s.responses ++ [⟨false, 0⟩] }

/-! ### RX_ACK, RX_RESET -/

/-- RX_ACK clears every RX register in DONE, and is not accepted in any other state. -/
def Obligations.RxAckEffect : Prop :=
  ∀ s : State,
    (s.rx.state = .done →
      exec .rxAck s = .next { s with rx := RxUnit.cleared, responses := s.responses ++ [⟨true, 0⟩] }) ∧
    (s.rx.state ≠ .done → exec .rxAck s = .next { s with responses := s.responses ++ [⟨false, 0⟩] })

/-- RX_RESET clears every RX register, in every state. -/
def Obligations.RxResetEffect : Prop :=
  ∀ s : State,
    exec .rxReset s = .next { s with rx := RxUnit.cleared, responses := s.responses ++ [⟨true, 0⟩] } ∧
    RxUnit.cleared.isError = false ∧ RxUnit.cleared.isDone = false ∧ RxUnit.cleared.needMore = true

/-! ### The ProtocolError record -/

/-- A step that enters ERROR is an RX_PUSH of a header byte: it raises in HDR0, HDR1 or EXTLEN only, at position
0, 1, 2, 3 or 9, records the byte pushed, answers `accepted`, and adds nothing to `rx_out`, no payload byte of the
frame having been consumed; TX and CMD_ERR are as they were. -/
def Obligations.ProtocolErrorIsRaisedOnAHeaderByte : Prop :=
  ∀ s t : State, Inv s → step s = .next t → s.rx.state ≠ .error → t.rx.state = .error →
    (∃ d rest, s.port = .command (encodeByteCommand 0x1 d) :: rest ∧ t.rx.errByte = d) ∧
    (s.rx.state = .hdr0 ∨ s.rx.state = .hdr1 ∨ s.rx.state = .extLen) ∧
    t.rx.errPos = s.rx.hpos ∧ t.rx.errPos.toNat ∈ [0, 1, 2, 3, 9] ∧ t.rx.errCause ≠ none ∧
    t.rx.cnt = 0 ∧ t.rxOut = s.rxOut ∧ t.tx = s.tx ∧ t.txOut = s.txOut ∧ t.cmdErr = s.cmdErr ∧
    t.responses = s.responses ++ [⟨true, 0⟩]

/-- In ERROR a step leaves every RX register as it is, unless it performs RX_RESET or hardware reset, which
clear them all. -/
def Obligations.ErrorIsLeftOnlyByReset : Prop :=
  ∀ s t : State, step s = .next t → s.rx.state = .error →
    t.rx = s.rx ∨
    (t.rx = RxUnit.cleared ∧
      ∃ rest, s.port = .command (encodeBareCommand 0x3) :: rest ∨ s.port = .hardReset :: rest)

/-! ### TX_START, TX_PUSH, TX_RESET -/

/-- An accepted TX_START emits the minimal header, masked as the role says, and latches the frame. -/
def Obligations.TxStartAccepted : Prop :=
  ∀ (fin : Bool) (opcode : BitVec 4) (len : Word64) (key : MaskKey) (s : State),
    s.tx.state = .idle → opcode ∈ [0x0#4, 0x1#4, 0x2#4, 0x8#4, 0x9#4, 0xA#4] →
    (opcode.getLsbD 3 = true → fin = true ∧ len.toNat ≤ 125) → len.toNat < 2 ^ 63 →
      let m : Bool := decide (s.role = .client)
      let k : MaskKey := if s.role = .client then key else ⟨0, 0, 0, 0⟩
      let b0 : Byte := BitVec.ofNat 8 (fin.toNat * 128 + opcode.toNat)
      let b1 : Byte := BitVec.ofNat 8 (m.toNat * 128 + minimalLen7 len.toNat)
      exec (.txStart fin 0 opcode len key) s = .next
        { s with
          txOut := s.txOut ++ ([b0, b1] ++ minimalExt len.toNat
            ++ (if s.role = .client then [key.k0, key.k1, key.k2, key.k3] else []))
          tx :=
            { state := if len = 0 then .idle else .payload, b0 := b0, b1 := b1, fin := fin, rsv := 0
              opcode := opcode, masked := m, len7 := BitVec.ofNat 7 (minimalLen7 len.toNat), len := len
              key := k, cnt := 0, err := s.tx.err }
          responses := s.responses ++ [⟨true, 0⟩] }

/-- A TX_START that fails a check is refused with the first cause in the order of the table; only TX_ERR may
change, and it keeps an earlier cause. -/
def Obligations.TxStartRefused : Prop :=
  ∀ (fin : Bool) (rsv : BitVec 3) (opcode : BitVec 4) (len : Word64) (key : MaskKey) (s : State),
    let refused (c : TxCause) : Prop :=
      exec (.txStart fin rsv opcode len key) s = .next
        { s with
          tx := { s.tx with err := if s.tx.err = none then some c else s.tx.err }
          responses := s.responses ++ [⟨false, 0⟩] }
    let defined : Prop := opcode ∈ [0x0#4, 0x1#4, 0x2#4, 0x8#4, 0x9#4, 0xA#4]
    let control : Prop := opcode.getLsbD 3 = true
    (s.tx.state = .payload → refused .busy) ∧
    (s.tx.state = .idle → rsv ≠ 0 → refused .rsv) ∧
    (s.tx.state = .idle → rsv = 0 → ¬ defined → refused .opcode) ∧
    (s.tx.state = .idle → rsv = 0 → defined → control → fin = false → refused .ctrlFrag) ∧
    (s.tx.state = .idle → rsv = 0 → defined → control → fin = true → 125 < len.toNat → refused .ctrlLen) ∧
    (s.tx.state = .idle → rsv = 0 → defined → ¬ control → 2 ^ 63 ≤ len.toNat → refused .lenRange)

/-- TX_PUSH emits the byte masked with its lane's key byte, and the last returns TX to IDLE. With no frame in progress
it is refused with TX_NO_FRAME and emits nothing. -/
def Obligations.TxPushEffect : Prop :=
  ∀ (data : Byte) (s : State),
    let lane : Byte :=
      if s.tx.cnt.toNat % 4 = 0 then s.tx.key.k0 else if s.tx.cnt.toNat % 4 = 1 then s.tx.key.k1
      else if s.tx.cnt.toNat % 4 = 2 then s.tx.key.k2 else s.tx.key.k3
    (s.tx.state = .payload →
      exec (.txPush data) s = .next
        { s with
          tx := { s.tx with
            cnt := s.tx.cnt + 1, state := if s.tx.cnt + 1 = s.tx.len then .idle else .payload }
          txOut := s.txOut ++ [if s.tx.masked = true then data ^^^ lane else data]
          responses := s.responses ++ [⟨true, 0⟩] }) ∧
    (s.tx.state = .idle →
      exec (.txPush data) s = .next
        { s with
          tx := { s.tx with err := if s.tx.err = none then some .noFrame else s.tx.err }
          responses := s.responses ++ [⟨false, 0⟩] })

/-- In a state that keeps the invariant, exactly the payload bytes still owed are accepted, and then TX is IDLE. -/
def Obligations.TxFrameTakesExactlyItsLength : Prop :=
  ∀ (bs : List Byte) (s : State), Inv s → s.tx.state = .payload →
    s.tx.cnt.toNat + bs.length = s.tx.len.toNat →
      ∃ t, execAll (bs.map .txPush) s = .next t ∧
        t.responses = s.responses ++ List.replicate bs.length ⟨true, 0⟩ ∧
        t.tx = { s.tx with cnt := s.tx.len, state := .idle }

/-- TX_RESET clears every TX register; the bytes in `tx_out` stay. -/
def Obligations.TxResetEffect : Prop :=
  ∀ s : State,
    exec .txReset s = .next { s with tx := TxUnit.cleared, responses := s.responses ++ [⟨true, 0⟩] } ∧
    TxUnit.cleared.busy = false ∧ TxUnit.cleared.txError = false

/-- A recorded TX_ERR is kept by every step but TX_RESET and hardware reset, which clear it. -/
def Obligations.TxErrIsClearedOnlyByReset : Prop :=
  ∀ s t : State, step s = .next t → s.tx.err ≠ none →
    t.tx.err = s.tx.err ∨
    (t.tx = TxUnit.cleared ∧
      ∃ rest, s.port = .command (encodeBareCommand 0x6) :: rest ∨ s.port = .hardReset :: rest)

/-! ### NOP, RD_REG, illegal words -/

/-- NOP changes no state and is accepted. -/
def Obligations.NopEffect : Prop :=
  ∀ s : State, exec .nop s = .next { s with responses := s.responses ++ [⟨true, 0⟩] }

/-- RD_REG of a mapped index returns the register's value and changes no state; an unmapped one is illegal. -/
def Obligations.RdRegEffect : Prop :=
  ∀ (idx : Byte) (s : State),
    (∀ g : Reg, g.index = idx →
      exec (.rdReg idx) s = .next { s with responses := s.responses ++ [⟨true, g.value s⟩] }) ∧
    (idx.toNat ≤ 0x10 → ∃ g : Reg, g.index = idx) ∧
    (0x10 < idx.toNat →
      exec (.rdReg idx) s = .next
        { s with
          cmdErr := if s.cmdErr.illegal = true then s.cmdErr else ⟨true, 7, some .unmappedIndex⟩
          responses := s.responses ++ [⟨false, 0⟩] })

/-- The register map: each register's index, and its fields; every bit it does not list reads 0. The codes that
software reads for ROLE, RX_STATE, TX_STATE, the error causes and IREASON are written as the numbers of R21, R24, R28,
R201, R211 and R30. -/
def Obligations.RegisterMapLayout : Prop :=
  [Reg.cfg, .rxStatus, .rxHdr, .rxLenLo, .rxLenHi, .rxKey, .rxCntLo, .rxCntHi, .rxErr, .txStatus, .txHdr, .txLenLo,
    .txLenHi, .txKey, .txCntLo, .txCntHi, .cmdErr].map Reg.index = (List.range 17).map (BitVec.ofNat 8) ∧
  ∀ s : State,
    let cfg := Reg.value .cfg s
    let st := Reg.value .rxStatus s
    let hdr := Reg.value .rxHdr s
    let key := Reg.value .rxKey s
    let err := Reg.value .rxErr s
    let tst := Reg.value .txStatus s
    let thdr := Reg.value .txHdr s
    let tkey := Reg.value .txKey s
    let ce := Reg.value .cmdErr s
    (cfg.extractLsb' 0 1 = (match s.role with | .client => 0#1 | .server => 1#1) ∧ cfg.extractLsb' 1 31 = 0) ∧
    (st.extractLsb' 0 3 =
        (match s.rx.state with
          | .hdr0 => 0#3 | .hdr1 => 1#3 | .extLen => 2#3 | .maskKey => 3#3 | .payload => 4#3 | .done => 5#3
          | .error => 6#3) ∧
      st.getLsbD 3 = s.rx.needMore ∧ st.getLsbD 4 = s.rx.hdrValid ∧
      st.getLsbD 5 = s.rx.isDone ∧ st.getLsbD 6 = s.rx.isError ∧ st.getLsbD 7 = s.rx.isControlFrame ∧
      st.extractLsb' 8 4 = s.rx.hpos ∧ st.extractLsb' 12 4 = s.rx.extIdx ∧ st.extractLsb' 16 3 = s.rx.keyIdx ∧
      st.getLsbD 19 = false ∧ st.extractLsb' 20 4 = s.rx.extNeed ∧ st.extractLsb' 24 8 = 0) ∧
    (hdr.extractLsb' 0 8 = s.rx.b1 ∧ hdr.extractLsb' 8 8 = s.rx.b0 ∧ hdr.getLsbD 16 = s.rx.fin ∧
      hdr.extractLsb' 17 3 = s.rx.rsv ∧ hdr.extractLsb' 20 4 = s.rx.opcode ∧ hdr.getLsbD 24 = s.rx.masked ∧
      hdr.extractLsb' 25 7 = s.rx.len7) ∧
    (Reg.value .rxLenHi s ++ Reg.value .rxLenLo s = s.rx.len ∧
      Reg.value .rxCntHi s ++ Reg.value .rxCntLo s = s.rx.cnt) ∧
    (key.extractLsb' 24 8 = s.rx.key.k0 ∧ key.extractLsb' 16 8 = s.rx.key.k1 ∧
      key.extractLsb' 8 8 = s.rx.key.k2 ∧ key.extractLsb' 0 8 = s.rx.key.k3) ∧
    (err.extractLsb' 0 4 =
        (match s.rx.errCause with
          | none => 0#4
          | some .rsvNonzero => 1#4 | some .opcodeReserved => 2#4 | some .controlFragmented => 3#4
          | some .unmasked => 4#4 | some .masked => 5#4 | some .controlTooLong => 6#4
          | some .lenNonminimal => 7#4 | some .lenMsbSet => 8#4) ∧
      err.extractLsb' 4 4 = s.rx.errPos ∧
      err.extractLsb' 8 8 = s.rx.errByte ∧ err.extractLsb' 16 16 = 0) ∧
    (tst.extractLsb' 0 1 = (match s.tx.state with | .idle => 0#1 | .payload => 1#1) ∧ tst.extractLsb' 1 3 = 0 ∧
      tst.extractLsb' 4 4 =
        (match s.tx.err with
          | none => 0#4
          | some .busy => 1#4 | some .rsv => 2#4 | some .opcode => 3#4 | some .ctrlFrag => 4#4
          | some .ctrlLen => 5#4 | some .lenRange => 6#4 | some .noFrame => 7#4) ∧
      tst.extractLsb' 8 24 = 0) ∧
    (thdr.extractLsb' 0 8 = s.tx.b1 ∧ thdr.extractLsb' 8 8 = s.tx.b0 ∧ thdr.getLsbD 16 = s.tx.fin ∧
      thdr.extractLsb' 17 3 = s.tx.rsv ∧ thdr.extractLsb' 20 4 = s.tx.opcode ∧ thdr.getLsbD 24 = s.tx.masked ∧
      thdr.extractLsb' 25 7 = s.tx.len7) ∧
    (Reg.value .txLenHi s ++ Reg.value .txLenLo s = s.tx.len ∧
      Reg.value .txCntHi s ++ Reg.value .txCntLo s = s.tx.cnt) ∧
    (tkey.extractLsb' 24 8 = s.tx.key.k0 ∧ tkey.extractLsb' 16 8 = s.tx.key.k1 ∧
      tkey.extractLsb' 8 8 = s.tx.key.k2 ∧ tkey.extractLsb' 0 8 = s.tx.key.k3) ∧
    (ce.getLsbD 0 = s.cmdErr.illegal ∧ ce.extractLsb' 1 3 = 0 ∧ ce.extractLsb' 4 4 = s.cmdErr.icode ∧
      ce.extractLsb' 8 2 =
        (match s.cmdErr.ireason with
          | none => 0#2
          | some .reservedCode => 1#2 | some .reservedBit => 2#2 | some .unmappedIndex => 3#2) ∧
      ce.extractLsb' 10 22 = 0)

/-- A word with a reserved CODE is illegal, whatever its other bits: IREASON 1, ICODE its CODE. -/
def Obligations.ReservedCodeIsIllegal : Prop :=
  ∀ (code : BitVec 4) (rest : BitVec 124) (s : State), 8#4 ≤ code →
    exec (.reservedCode code rest) s = .next
      { s with
        cmdErr := if s.cmdErr.illegal = true then s.cmdErr else ⟨true, code, some .reservedCode⟩
        responses := s.responses ++ [⟨false, 0⟩] }

/-- Which words are illegal, and what an illegal word does: it is recorded in CMD_ERR with the first reason in
the order CODE, reserved bits, register index; nothing else changes. A word that is not illegal leaves
CMD_ERR alone. -/
def Obligations.IllegalCommandWords : Prop :=
  ∀ (c : Command) (s : State) (rest : List HostEvent), s.port = .command c :: rest →
    let code : Nat := c.toNat % 16
    let reservedSet : Prop :=
      ∃ i, c.getLsbD i = true ∧
        ((code ∈ [0, 2, 3, 6] ∧ 4 ≤ i) ∨ (code ∈ [1, 5, 7] ∧ ((4 ≤ i ∧ i < 8) ∨ 16 ≤ i)) ∨
         (code = 4 ∧ 12 ≤ i ∧ i < 32))
    let unmapped : Prop := code = 7 ∧ 0x10 < c.toNat / 256 % 256
    let illegal (g : IllegalReason) : Prop :=
      step s = .next
        { s with
          port := rest
          cmdErr := if s.cmdErr.illegal = true then s.cmdErr else ⟨true, BitVec.ofNat 4 code, some g⟩
          responses := s.responses ++ [⟨false, 0⟩] }
    (8 ≤ code → illegal .reservedCode) ∧
    (code < 8 → reservedSet → illegal .reservedBit) ∧
    (code < 8 → ¬ reservedSet → unmapped → illegal .unmappedIndex) ∧
    (code < 8 → ¬ reservedSet → ¬ unmapped → ∃ t, step s = .next t ∧ t.cmdErr = s.cmdErr)

/-- CMD_ERR, once it records an illegal command, is kept by every step but hardware reset. -/
def Obligations.CmdErrIsSticky : Prop :=
  ∀ s t : State, step s = .next t → s.cmdErr.illegal = true → (∀ rest, s.port ≠ .hardReset :: rest) →
    t.cmdErr = s.cmdErr

/-! ### Flags and masking -/

/-- The RX status flags are those of RX_STATE and RX_OPCODE, and exactly one of NEED_MORE, DONE and ERROR is 1. -/
def Obligations.RxStatusFlags : Prop :=
  ∀ rx : RxUnit,
    (rx.needMore = true ↔ rx.state.code.toNat ≤ 4) ∧
    (rx.hdrValid = true ↔ rx.state.code = 4 ∨ rx.state.code = 5) ∧
    (rx.isDone = true ↔ rx.state.code = 5) ∧ (rx.isError = true ↔ rx.state.code = 6) ∧
    rx.isControlFrame = rx.opcode.getLsbD 3 ∧
    rx.needMore.toNat + rx.isDone.toNat + rx.isError.toNat = 1

/-- Masking is an involution, byte by byte and over a payload. -/
def Obligations.MaskingIsAnInvolution : Prop :=
  (∀ (b : Byte) (k : MaskKey) (i : Word64) (m : Bool), mask (mask b k i m) k i m = b) ∧
  (∀ (k : MaskKey) (m : Bool) (n : Nat) (p : List Byte), maskBytes k m n (maskBytes k m n p) = p)

/-- Four payload bytes from an index that is a multiple of 4 are masked together as the XOR of two 32-bit
words. -/
def Obligations.FourBytesMaskAsOneWord : Prop :=
  ∀ (p0 p1 p2 p3 : Byte) (k : MaskKey) (i : Word64), i.toNat % 4 = 0 →
    mask p0 k i true ++ mask p1 k (i + 1) true ++ mask p2 k (i + 2) true ++ mask p3 k (i + 3) true
      = (p0 ++ p1 ++ p2 ++ p3) ^^^ (k.k0 ++ k.k1 ++ k.k2 ++ k.k3)

/-! ### The whole machine -/

/-- The invariant holds after power-on reset at either role. -/
def Obligations.InvariantAtReset : Prop := ∀ r : Role, Inv (State.resetAs r)

/-- Every step keeps the invariant. -/
def Obligations.StepKeepsTheInvariant : Prop := ∀ s t : State, Inv s → step s = .next t → Inv t

/-- The counter bounds and legal values that the invariant gives. -/
def Obligations.CounterBounds : Prop :=
  ∀ s : State, Inv s →
    s.rx.hpos.toNat ≤ 14 ∧ s.rx.extIdx ≤ s.rx.extNeed ∧ s.rx.extNeed.toNat ∈ [0, 2, 8] ∧ s.rx.keyIdx.toNat ≤ 4 ∧
    s.rx.cnt ≤ s.rx.len ∧ s.rx.len.toNat ≤ 2 ^ 63 - 1 ∧
    s.tx.cnt ≤ s.tx.len ∧ s.tx.len.toNat ≤ 2 ^ 63 - 1 ∧
    (s.rx.errCause ≠ none ↔ s.rx.state = .error)

/-- The streams and the responses only grow: no step removes or rewrites a byte. -/
def Obligations.StreamsOnlyGrow : Prop :=
  ∀ s t : State, step s = .next t →
    (∃ bs, t.rxOut = s.rxOut ++ bs) ∧ (∃ bs, t.txOut = s.txOut ++ bs) ∧
    (∃ rs, t.responses = s.responses ++ rs)

/-- RX and TX are independent: an RX command writes no TX register and a TX command no RX register, neither writes
CMD_ERR, and the two have the same results in either order. -/
def Obligations.RxAndTxCommandsCommute : Prop :=
  ∀ i j : Instr,
    ((∃ d, i = .rxPush d) ∨ i = .rxAck ∨ i = .rxReset) →
    ((∃ fin rsv op len key, j = .txStart fin rsv op len key) ∨ (∃ d, j = .txPush d) ∨ j = .txReset) →
    ∀ s : State, ∃ t u v w : State,
      exec i s = .next t ∧ exec j s = .next u ∧ exec j t = .next v ∧ exec i u = .next w ∧
      t.tx = s.tx ∧ t.txOut = s.txOut ∧ t.cmdErr = s.cmdErr ∧
      u.rx = s.rx ∧ u.rxOut = s.rxOut ∧ u.cmdErr = s.cmdErr ∧
      v = { w with responses := v.responses } ∧ v.rx = t.rx ∧ v.tx = u.tx ∧ v.rxOut = t.rxOut ∧ v.txOut = u.txOut

/-- What an RX command does depends on ROLE and the RX registers alone, and what a TX command does on ROLE and the
TX registers alone: two instances that agree on these get the same registers, the same new bytes and the same
response. -/
def Obligations.UnitsReadOnlyTheirOwnRegisters : Prop :=
  (∀ i : Instr, ((∃ d, i = .rxPush d) ∨ i = .rxAck ∨ i = .rxReset) →
    ∀ s s' : State, s.role = s'.role → s.rx = s'.rx →
      ∃ (t t' : State) (bs : List Byte) (r : Response), exec i s = .next t ∧ exec i s' = .next t' ∧
        t.rx = t'.rx ∧ t.rxOut = s.rxOut ++ bs ∧ t'.rxOut = s'.rxOut ++ bs ∧
        t.responses = s.responses ++ [r] ∧ t'.responses = s'.responses ++ [r]) ∧
  (∀ j : Instr,
    ((∃ fin rsv op len key, j = .txStart fin rsv op len key) ∨ (∃ d, j = .txPush d) ∨ j = .txReset) →
    ∀ s s' : State, s.role = s'.role → s.tx = s'.tx →
      ∃ (t t' : State) (bs : List Byte) (r : Response), exec j s = .next t ∧ exec j s' = .next t' ∧
        t.tx = t'.tx ∧ t.txOut = s.txOut ++ bs ∧ t'.txOut = s'.txOut ++ bs ∧
        t.responses = s.responses ++ [r] ∧ t'.responses = s'.responses ++ [r])

/-- ROLE selects the masking of TX_START, the mask check of a byte pushed in HDR1 and what RD_REG of CFG reads, and
nothing else: any other instruction, and an RX_PUSH or a frame's byte 0 outside HDR1, has the same effect whichever role
the block has, and leaves ROLE as it was. -/
def Obligations.RoleSelectsMaskingOnly : Prop :=
  ∀ (i : Instr) (s : State) (r : Role),
    (∀ fin rsv op len key, i ≠ .txStart fin rsv op len key) → i ≠ .rdReg 0x00 →
    (s.rx.state = .hdr1 → (∀ d, i ≠ .rxPush d) ∧ (encode i).isFrameByte0 = false) →
      ∃ t, exec i s = .next t ∧ t.role = s.role ∧ exec i { s with role := r } = .next { t with role := r }

/-- A command that records an error records one only: a ProtocolError by RX_PUSH, a TxRefused by TX_START or TX_PUSH,
an IllegalCommand with neither unit's registers or stream changed. -/
def Obligations.CommandRecordsAtMostOneError : Prop :=
  ∀ (c : Command) (s t : State) (rest : List HostEvent), s.port = .command c :: rest → step s = .next t →
    (t.rx.errCause ≠ s.rx.errCause → t.rx.errCause ≠ none →
      c.toNat % 16 = 1 ∧ t.tx = s.tx ∧ t.txOut = s.txOut ∧ t.rxOut = s.rxOut ∧ t.cmdErr = s.cmdErr) ∧
    (t.tx.err ≠ s.tx.err → t.tx.err ≠ none →
      (c.toNat % 16 = 4 ∨ c.toNat % 16 = 5) ∧ t.rx = s.rx ∧ t.rxOut = s.rxOut ∧ t.txOut = s.txOut ∧
        t.cmdErr = s.cmdErr) ∧
    (t.cmdErr ≠ s.cmdErr →
      t.rx = s.rx ∧ t.tx = s.tx ∧ t.rxOut = s.rxOut ∧ t.txOut = s.txOut ∧
        t.responses = s.responses ++ [⟨false, 0⟩])

/-- Instances share no state: a step of one leaves every other as it was and depends on its own state alone, and
steps of two instances give the same result in either order. -/
def Obligations.InstancesShareNoState : Prop :=
  ∀ (system : List State) (j k : Nat), j ≠ k →
    (∀ system', stepInstance k system = .next system' →
      system'[j]? = system[j]? ∧ system'.length = system.length ∧
      ∀ s, system[k]? = some s → ∃ t, step s = .next t ∧ system'[k]? = some t) ∧
    (∀ a b c d, stepInstance j system = .next a → stepInstance k a = .next b →
      stepInstance k system = .next c → stepInstance j c = .next d → b = d)

/-! ### Frames through the encoder and the decoder -/

/-- One TX_START with a frame's fields and one TX_PUSH per payload byte are all accepted, append exactly the
frame's wire bytes to `tx_out`, and leave TX IDLE. -/
def Obligations.EncoderEmitsTheFrame : Prop :=
  ∀ (f : Frame) (s : State), f.Encodable → s.tx.state = .idle →
    ∃ t, execAll (txFrame f.fin f.opcode f.key f.payload) s = .next t ∧
      t.txOut = s.txOut ++ (f.sentBy s.role).wire ∧ t.tx.state = .idle ∧
      t.responses = s.responses ++ List.replicate (f.payload.length + 1) ⟨true, 0⟩

/-- What a TX emits for a frame, an RX of the opposite role decodes to that frame and its payload; an RX of the
same role rejects it by its mask bit. -/
def Obligations.DecodeOfEncodedFrame : Prop :=
  ∀ (f : Frame) (s u : State), f.Encodable → s.tx.state = .idle → u.rx = RxUnit.cleared →
    ∃ (t : State) (bytes : List Byte) (v : State),
      execAll (txFrame f.fin f.opcode f.key f.payload) s = .next t ∧ t.txOut = s.txOut ++ bytes ∧
      execAll (rxFeed bytes) u = .next v ∧
      (u.role = s.role.opposite →
        v.rx.state = .done ∧ v.rx.fin = t.tx.fin ∧ v.rx.rsv = t.tx.rsv ∧ v.rx.opcode = t.tx.opcode ∧
        v.rx.masked = t.tx.masked ∧ v.rx.len = t.tx.len ∧ v.rx.key = t.tx.key ∧ v.rxOut = u.rxOut ++ f.payload) ∧
      (u.role = s.role →
        v.rx.state = .error ∧ v.rx.errCause = some (if u.role = .client then .masked else .unmasked))

/-- From a frame's start, RX takes every byte of a valid frame, reaches DONE on its last byte and not before, has
then emitted the unmasked payload, and takes no byte that follows. -/
def Obligations.DecoderAcceptsValidFrames : Prop :=
  ∀ (b0 b1 : Byte) (ext key payload : List Byte) (s : State),
    s.rx = RxUnit.cleared → ValidFrame s.role b0 b1 ext key payload →
    let bytes := frameBytes b0 b1 ext key payload
    (∀ taken left, taken ++ left = bytes → left ≠ [] →
      ∃ t, execAll (rxFeed taken) s = .next t ∧ t.rx.needMore = true ∧
        t.responses = s.responses ++ List.replicate taken.length ⟨true, 0⟩) ∧
    (∀ more, ∃ t, execAll (rxFeed (bytes ++ more)) s = .next t ∧ t.rx.state = .done ∧
      t.rxOut = s.rxOut ++ maskBytes (keyOfBytes key) (maskedOf b1) 0 payload ∧
      t.responses = s.responses ++ List.replicate bytes.length ⟨true, 0⟩ ++ List.replicate more.length ⟨false, 0⟩)

/-- From a frame's start, on bytes no beginning of which is a valid frame, RX ends in ERROR on a header byte at
position at most 9 with nothing emitted, or still needs more bytes. -/
def Obligations.DecoderRejectsOrAwaits : Prop :=
  ∀ (bytes : List Byte) (s : State), s.rx = RxUnit.cleared →
    (∀ taken left, taken ++ left = bytes → ¬ IsValidFrame s.role taken) →
      ∃ t, execAll (rxFeed bytes) s = .next t ∧
        ((t.rx.state = .error ∧ t.rx.errPos.toNat ≤ 9 ∧ t.rxOut = s.rxOut) ∨ t.rx.needMore = true)

/-- Bytes an RX takes to DONE, a TX of the opposite role given the RX's fields and the bytes it emitted sends
again, byte for byte. -/
def Obligations.EncodeOfDecodedFrame : Prop :=
  ∀ (bytes emitted : List Byte) (s t u : State),
    s.rx = RxUnit.cleared → execAll (rxFeed bytes) s = .next t → t.rx.state = .done →
    t.responses = s.responses ++ List.replicate bytes.length ⟨true, 0⟩ → t.rxOut = s.rxOut ++ emitted →
    u.role = s.role.opposite → u.tx.state = .idle →
      ∃ v, execAll (.txStart t.rx.fin 0 t.rx.opcode t.rx.len t.rx.key :: emitted.map .txPush) u = .next v ∧
        v.txOut = u.txOut ++ bytes
end

