-- ==== Sys2Proof/Laws/Decode.lean ====
section
/-! SUPPORT. The fields of encoded words: what each field reader finds in what each encoder wrote. -/

namespace Sys2Proof

/-! ### Byte 0 of a frame -/

@[simp] theorem byte0_fin (fin : Bool) (rsv : BitVec 3) (op : BitVec 4) : (byte0 fin rsv op).fin = fin := by
  revert fin rsv op
  decide

@[simp] theorem byte0_rsv (fin : Bool) (rsv : BitVec 3) (op : BitVec 4) : (byte0 fin rsv op).rsv = rsv := by
  revert fin rsv op
  decide

@[simp] theorem byte0_opcode (fin : Bool) (rsv : BitVec 3) (op : BitVec 4) : (byte0 fin rsv op).opcode = op := by
  revert fin rsv op
  decide

/-- A byte is byte 0 of its own three fields (R70). -/
@[simp] theorem byte0_of_fields (b : Byte) : byte0 b.fin b.rsv b.opcode = b := by
  revert b
  decide

/-- `fin<<7 | rsv<<4 | opcode` as a number (R70). -/
theorem byte0_eq_ofNat (fin : Bool) (rsv : BitVec 3) (op : BitVec 4) :
    byte0 fin rsv op = BitVec.ofNat 8 (fin.toNat * 128 + rsv.toNat * 16 + op.toNat) := by
  revert fin rsv op
  decide

/-! ### Command words -/

@[simp] theorem encodeByteCommand_code (code : BitVec 4) (d : Byte) : (encodeByteCommand code d).code = code := by
  revert code d
  decide

@[simp] theorem encodeByteCommand_operandByte (code : BitVec 4) (d : Byte) :
    (encodeByteCommand code d).operandByte = d := by
  revert code d
  decide

@[simp] theorem encodeBareCommand_code (code : BitVec 4) : (encodeBareCommand code).code = code := by
  revert code
  decide

/-- The CODE of a word that ends in it (R80, R183). -/
@[simp] theorem append_code (rest : BitVec 124) (code : BitVec 4) : Command.code (rest ++ code) = code := by
  apply BitVec.eq_of_getLsbD_eq
  intro i hi
  rw [Command.code, BitVec.getLsbD_extractLsb', BitVec.getLsbD_append]
  simp [hi]

/-- The bits above CODE of a word that ends in CODE (R183). -/
@[simp] theorem append_aboveCode (rest : BitVec 124) (code : BitVec 4) : Command.aboveCode (rest ++ code) = rest := by
  apply BitVec.eq_of_getLsbD_eq
  intro i hi
  rw [Command.aboveCode, BitVec.getLsbD_extractLsb', BitVec.getLsbD_append]
  simp [hi]

/-- A word is the bits above CODE, then CODE. -/
@[simp] theorem aboveCode_append_code (c : Command) : c.aboveCode ++ c.code = c := by
  apply BitVec.eq_of_getLsbD_eq
  intro i hi
  rw [BitVec.getLsbD_append, Command.aboveCode, Command.code, BitVec.getLsbD_extractLsb', BitVec.getLsbD_extractLsb']
  by_cases h : i < 4
  · simp [h]
  · simp [h, show 4 + (i - 4) = i by omega, show i - 4 < 124 by omega]

/-- Packing and unpacking a key are inverse (R55, R82). -/
@[simp] theorem MaskKey.unpack_pack (k : MaskKey) : MaskKey.unpack k.pack = k := by
  obtain ⟨a, b, c, d⟩ := k
  simp only [MaskKey.unpack, MaskKey.pack, MaskKey.mk.injEq]
  refine ⟨?_, ?_, ?_, ?_⟩ <;> apply BitVec.eq_of_getLsbD_eq <;> intro i hi <;>
    rw [BitVec.getLsbD_extractLsb', BitVec.getLsbD_append, BitVec.getLsbD_append, BitVec.getLsbD_append]
  · simp [hi, show ¬ 24 + i < 8 by omega, show ¬ 24 + i - 8 < 8 by omega, show ¬ 24 + i - 8 - 8 < 8 by omega,
      show 24 + i - 8 - 8 - 8 = i by omega]
  · simp [hi, show ¬ 16 + i < 8 by omega, show ¬ 16 + i - 8 < 8 by omega, show 16 + i - 8 - 8 = i by omega]
  · simp [hi, show ¬ 8 + i < 8 by omega]
  · simp [hi]

end Sys2Proof
end

