-- ==== Sys2Proof/Laws/Operands.lean ====
section
/-! SUPPORT. The small lemmas of the operand functions: opcode classes, key lanes, the length accumulation, the
masked payload, and the register indices. -/

namespace Sys2Proof.Machine

/-- The six opcodes, as a list (R72). -/
theorem definedOpcode_iff (op : BitVec 4) :
    definedOpcode op = true ↔ op ∈ [0x0#4, 0x1#4, 0x2#4, 0x8#4, 0x9#4, 0xA#4] := by
  revert op
  decide

/-- The lane of a payload index is the index modulo 4 (R14, R100). -/
theorem lane_toNat (i : Word64) : (i.extractLsb' 0 2).toNat = i.toNat % 4 := by
  simp

/-- The key byte of payload index `i` (R55, R100). -/
theorem keyLane_index (k : MaskKey) (i : Word64) :
    keyLane k (i.extractLsb' 0 2) =
      if i.toNat % 4 = 0 then k.k0 else if i.toNat % 4 = 1 then k.k1 else if i.toNat % 4 = 2 then k.k2 else k.k3 := by
  have h : i.toNat % 4 < 4 := Nat.mod_lt _ (by decide)
  unfold keyLane
  rw [lane_toNat]
  split <;> simp_all

/-- Lanes `i` and `i + 4` use the same key byte (R105). -/
theorem keyLane_add_four (k : MaskKey) (i : Word64) :
    keyLane k ((i + 4).extractLsb' 0 2) = keyLane k (i.extractLsb' 0 2) := by
  have h : (i + 4).toNat % 4 = i.toNat % 4 := by
    rw [BitVec.toNat_add]
    simp
  rw [keyLane_index, keyLane_index, h]

/-- The big-endian accumulation of one more extended-length byte, as long as it loses no bit (R76, R146). -/
theorem accumulate_toNat (len : Word64) (d : Byte) (h : len.toNat < 2 ^ 56) :
    (len <<< 8 ||| d.setWidth 64).toNat = len.toNat * 256 + d.toNat := by
  have disjoint : (len <<< 8) &&& d.setWidth 64 = 0 := by
    ext i hi
    simp only [BitVec.getElem_and, BitVec.getElem_shiftLeft, BitVec.getElem_setWidth]
    by_cases h8 : i < 8
    · simp [h8]
    · simp [BitVec.getLsbD_of_ge d i (by omega)]
  rw [← BitVec.add_eq_or_of_and_eq_zero _ _ disjoint, BitVec.toNat_add, BitVec.toNat_shiftLeft, BitVec.toNat_setWidth]
  have := d.isLt
  omega

/-- Masking keeps the number of payload bytes (R79). -/
@[simp] theorem length_maskBytes (k : MaskKey) (m : Bool) (n : Nat) (bs : List Byte) :
    (maskBytes k m n bs).length = bs.length := by
  induction bs generalizing n with
  | nil => rfl
  | cons b bs ih => simp [maskBytes, ih]

/-- The first byte of a payload, then the rest at the next index (R101). -/
@[simp] theorem maskBytes_cons (k : MaskKey) (m : Bool) (n : Nat) (b : Byte) (bs : List Byte) :
    maskBytes k m n (b :: bs) = mask b k (BitVec.ofNat 64 n) m :: maskBytes k m (n + 1) bs := rfl

/-- `beBytes k` makes `k` bytes. -/
@[simp] theorem length_beBytes (k n : Nat) : (beBytes k n).length = k := by
  induction k with
  | zero => rfl
  | succ k ih => simp [beBytes, ih]

/-- A register's index names it (R32). -/
@[simp] theorem Reg.ofIndex_index (g : Reg) : Reg.ofIndex g.index = some g := by
  cases g <;> rfl

/-- Every mapped index is a register's (R32, R61). -/
theorem Reg.index_of_ofIndex : ∀ (idx : Byte) (g : Reg), Reg.ofIndex idx = some g → g.index = idx := by
  intro idx g h
  unfold Reg.ofIndex at h
  split at h <;> simp at h <;> subst h <;> exact BitVec.eq_of_toNat_eq (by simp_all [Reg.index])

end Sys2Proof.Machine
end

