-- ==== Sys2Proof/Laws/State.lean ====
section
/-! SUPPORT. One lemma per field of State and per named update of it, true by unfolding, so that no later proof
unfolds a record update; and the same for the one update of the RX registers that is named. -/

namespace Sys2Proof.Machine

variable (s : State)

@[simp] theorem State.setRx_role (x : RxUnit) : (s.setRx x).role = s.role := rfl
@[simp] theorem State.setRx_strap (x : RxUnit) : (s.setRx x).strap = s.strap := rfl
@[simp] theorem State.setRx_rx (x : RxUnit) : (s.setRx x).rx = x := rfl
@[simp] theorem State.setRx_tx (x : RxUnit) : (s.setRx x).tx = s.tx := rfl
@[simp] theorem State.setRx_cmdErr (x : RxUnit) : (s.setRx x).cmdErr = s.cmdErr := rfl
@[simp] theorem State.setRx_rxOut (x : RxUnit) : (s.setRx x).rxOut = s.rxOut := rfl
@[simp] theorem State.setRx_txOut (x : RxUnit) : (s.setRx x).txOut = s.txOut := rfl
@[simp] theorem State.setRx_port (x : RxUnit) : (s.setRx x).port = s.port := rfl
@[simp] theorem State.setRx_responses (x : RxUnit) : (s.setRx x).responses = s.responses := rfl

@[simp] theorem State.setTx_role (x : TxUnit) : (s.setTx x).role = s.role := rfl
@[simp] theorem State.setTx_strap (x : TxUnit) : (s.setTx x).strap = s.strap := rfl
@[simp] theorem State.setTx_rx (x : TxUnit) : (s.setTx x).rx = s.rx := rfl
@[simp] theorem State.setTx_tx (x : TxUnit) : (s.setTx x).tx = x := rfl
@[simp] theorem State.setTx_cmdErr (x : TxUnit) : (s.setTx x).cmdErr = s.cmdErr := rfl
@[simp] theorem State.setTx_rxOut (x : TxUnit) : (s.setTx x).rxOut = s.rxOut := rfl
@[simp] theorem State.setTx_txOut (x : TxUnit) : (s.setTx x).txOut = s.txOut := rfl
@[simp] theorem State.setTx_port (x : TxUnit) : (s.setTx x).port = s.port := rfl
@[simp] theorem State.setTx_responses (x : TxUnit) : (s.setTx x).responses = s.responses := rfl

@[simp] theorem State.setCmdErr_role (x : CmdErr) : (s.setCmdErr x).role = s.role := rfl
@[simp] theorem State.setCmdErr_strap (x : CmdErr) : (s.setCmdErr x).strap = s.strap := rfl
@[simp] theorem State.setCmdErr_rx (x : CmdErr) : (s.setCmdErr x).rx = s.rx := rfl
@[simp] theorem State.setCmdErr_tx (x : CmdErr) : (s.setCmdErr x).tx = s.tx := rfl
@[simp] theorem State.setCmdErr_cmdErr (x : CmdErr) : (s.setCmdErr x).cmdErr = x := rfl
@[simp] theorem State.setCmdErr_rxOut (x : CmdErr) : (s.setCmdErr x).rxOut = s.rxOut := rfl
@[simp] theorem State.setCmdErr_txOut (x : CmdErr) : (s.setCmdErr x).txOut = s.txOut := rfl
@[simp] theorem State.setCmdErr_port (x : CmdErr) : (s.setCmdErr x).port = s.port := rfl
@[simp] theorem State.setCmdErr_responses (x : CmdErr) : (s.setCmdErr x).responses = s.responses := rfl

@[simp] theorem State.emitRx_role (b : Byte) : (s.emitRx b).role = s.role := rfl
@[simp] theorem State.emitRx_strap (b : Byte) : (s.emitRx b).strap = s.strap := rfl
@[simp] theorem State.emitRx_rx (b : Byte) : (s.emitRx b).rx = s.rx := rfl
@[simp] theorem State.emitRx_tx (b : Byte) : (s.emitRx b).tx = s.tx := rfl
@[simp] theorem State.emitRx_cmdErr (b : Byte) : (s.emitRx b).cmdErr = s.cmdErr := rfl
@[simp] theorem State.emitRx_rxOut (b : Byte) : (s.emitRx b).rxOut = s.rxOut ++ [b] := rfl
@[simp] theorem State.emitRx_txOut (b : Byte) : (s.emitRx b).txOut = s.txOut := rfl
@[simp] theorem State.emitRx_port (b : Byte) : (s.emitRx b).port = s.port := rfl
@[simp] theorem State.emitRx_responses (b : Byte) : (s.emitRx b).responses = s.responses := rfl

@[simp] theorem State.emitTx_role (bs : List Byte) : (s.emitTx bs).role = s.role := rfl
@[simp] theorem State.emitTx_strap (bs : List Byte) : (s.emitTx bs).strap = s.strap := rfl
@[simp] theorem State.emitTx_rx (bs : List Byte) : (s.emitTx bs).rx = s.rx := rfl
@[simp] theorem State.emitTx_tx (bs : List Byte) : (s.emitTx bs).tx = s.tx := rfl
@[simp] theorem State.emitTx_cmdErr (bs : List Byte) : (s.emitTx bs).cmdErr = s.cmdErr := rfl
@[simp] theorem State.emitTx_rxOut (bs : List Byte) : (s.emitTx bs).rxOut = s.rxOut := rfl
@[simp] theorem State.emitTx_txOut (bs : List Byte) : (s.emitTx bs).txOut = s.txOut ++ bs := rfl
@[simp] theorem State.emitTx_port (bs : List Byte) : (s.emitTx bs).port = s.port := rfl
@[simp] theorem State.emitTx_responses (bs : List Byte) : (s.emitTx bs).responses = s.responses := rfl

@[simp] theorem State.respond_role (a : Bool) (d : Word32) : (s.respond a d).role = s.role := rfl
@[simp] theorem State.respond_strap (a : Bool) (d : Word32) : (s.respond a d).strap = s.strap := rfl
@[simp] theorem State.respond_rx (a : Bool) (d : Word32) : (s.respond a d).rx = s.rx := rfl
@[simp] theorem State.respond_tx (a : Bool) (d : Word32) : (s.respond a d).tx = s.tx := rfl
@[simp] theorem State.respond_cmdErr (a : Bool) (d : Word32) : (s.respond a d).cmdErr = s.cmdErr := rfl
@[simp] theorem State.respond_rxOut (a : Bool) (d : Word32) : (s.respond a d).rxOut = s.rxOut := rfl
@[simp] theorem State.respond_txOut (a : Bool) (d : Word32) : (s.respond a d).txOut = s.txOut := rfl
@[simp] theorem State.respond_port (a : Bool) (d : Word32) : (s.respond a d).port = s.port := rfl
@[simp] theorem State.respond_responses (a : Bool) (d : Word32) : (s.respond a d).responses = s.responses ++ [⟨a, d⟩] := rfl

@[simp] theorem State.setPort_role (p : List HostEvent) : (s.setPort p).role = s.role := rfl
@[simp] theorem State.setPort_strap (p : List HostEvent) : (s.setPort p).strap = s.strap := rfl
@[simp] theorem State.setPort_rx (p : List HostEvent) : (s.setPort p).rx = s.rx := rfl
@[simp] theorem State.setPort_tx (p : List HostEvent) : (s.setPort p).tx = s.tx := rfl
@[simp] theorem State.setPort_cmdErr (p : List HostEvent) : (s.setPort p).cmdErr = s.cmdErr := rfl
@[simp] theorem State.setPort_rxOut (p : List HostEvent) : (s.setPort p).rxOut = s.rxOut := rfl
@[simp] theorem State.setPort_txOut (p : List HostEvent) : (s.setPort p).txOut = s.txOut := rfl
@[simp] theorem State.setPort_port (p : List HostEvent) : (s.setPort p).port = p := rfl
@[simp] theorem State.setPort_responses (p : List HostEvent) : (s.setPort p).responses = s.responses := rfl

@[simp] theorem State.clearRx_role : s.clearRx.role = s.role := rfl
@[simp] theorem State.clearRx_strap : s.clearRx.strap = s.strap := rfl
@[simp] theorem State.clearRx_rx : s.clearRx.rx = RxUnit.cleared := rfl
@[simp] theorem State.clearRx_tx : s.clearRx.tx = s.tx := rfl
@[simp] theorem State.clearRx_cmdErr : s.clearRx.cmdErr = s.cmdErr := rfl
@[simp] theorem State.clearRx_rxOut : s.clearRx.rxOut = s.rxOut := rfl
@[simp] theorem State.clearRx_txOut : s.clearRx.txOut = s.txOut := rfl
@[simp] theorem State.clearRx_port : s.clearRx.port = s.port := rfl
@[simp] theorem State.clearRx_responses : s.clearRx.responses = s.responses := rfl

@[simp] theorem State.clearTx_role : s.clearTx.role = s.role := rfl
@[simp] theorem State.clearTx_strap : s.clearTx.strap = s.strap := rfl
@[simp] theorem State.clearTx_rx : s.clearTx.rx = s.rx := rfl
@[simp] theorem State.clearTx_tx : s.clearTx.tx = TxUnit.cleared := rfl
@[simp] theorem State.clearTx_cmdErr : s.clearTx.cmdErr = s.cmdErr := rfl
@[simp] theorem State.clearTx_rxOut : s.clearTx.rxOut = s.rxOut := rfl
@[simp] theorem State.clearTx_txOut : s.clearTx.txOut = s.txOut := rfl
@[simp] theorem State.clearTx_port : s.clearTx.port = s.port := rfl
@[simp] theorem State.clearTx_responses : s.clearTx.responses = s.responses := rfl

@[simp] theorem State.hardReset_role : s.hardReset.role = s.strap := rfl
@[simp] theorem State.hardReset_strap : s.hardReset.strap = s.strap := rfl
@[simp] theorem State.hardReset_rx : s.hardReset.rx = RxUnit.cleared := rfl
@[simp] theorem State.hardReset_tx : s.hardReset.tx = TxUnit.cleared := rfl
@[simp] theorem State.hardReset_cmdErr : s.hardReset.cmdErr = CmdErr.cleared := rfl
@[simp] theorem State.hardReset_rxOut : s.hardReset.rxOut = s.rxOut := rfl
@[simp] theorem State.hardReset_txOut : s.hardReset.txOut = s.txOut := rfl
@[simp] theorem State.hardReset_port : s.hardReset.port = s.port := rfl
@[simp] theorem State.hardReset_responses : s.hardReset.responses = s.responses := rfl

@[simp] theorem State.driveStrap_role (r : Role) : (s.driveStrap r).role = s.role := rfl
@[simp] theorem State.driveStrap_strap (r : Role) : (s.driveStrap r).strap = r := rfl
@[simp] theorem State.driveStrap_rx (r : Role) : (s.driveStrap r).rx = s.rx := rfl
@[simp] theorem State.driveStrap_tx (r : Role) : (s.driveStrap r).tx = s.tx := rfl
@[simp] theorem State.driveStrap_cmdErr (r : Role) : (s.driveStrap r).cmdErr = s.cmdErr := rfl
@[simp] theorem State.driveStrap_rxOut (r : Role) : (s.driveStrap r).rxOut = s.rxOut := rfl
@[simp] theorem State.driveStrap_txOut (r : Role) : (s.driveStrap r).txOut = s.txOut := rfl
@[simp] theorem State.driveStrap_port (r : Role) : (s.driveStrap r).port = s.port := rfl
@[simp] theorem State.driveStrap_responses (r : Role) : (s.driveStrap r).responses = s.responses := rfl

variable (rx : RxUnit) (c : ProtocolCause) (pos : BitVec 4) (d : Byte)

@[simp] theorem RxUnit.raise_state : (rx.raise c pos d).state = .error := rfl
@[simp] theorem RxUnit.raise_hpos : (rx.raise c pos d).hpos = rx.hpos := rfl
@[simp] theorem RxUnit.raise_extNeed : (rx.raise c pos d).extNeed = rx.extNeed := rfl
@[simp] theorem RxUnit.raise_extIdx : (rx.raise c pos d).extIdx = rx.extIdx := rfl
@[simp] theorem RxUnit.raise_keyIdx : (rx.raise c pos d).keyIdx = rx.keyIdx := rfl
@[simp] theorem RxUnit.raise_b0 : (rx.raise c pos d).b0 = rx.b0 := rfl
@[simp] theorem RxUnit.raise_b1 : (rx.raise c pos d).b1 = rx.b1 := rfl
@[simp] theorem RxUnit.raise_fin : (rx.raise c pos d).fin = rx.fin := rfl
@[simp] theorem RxUnit.raise_rsv : (rx.raise c pos d).rsv = rx.rsv := rfl
@[simp] theorem RxUnit.raise_opcode : (rx.raise c pos d).opcode = rx.opcode := rfl
@[simp] theorem RxUnit.raise_masked : (rx.raise c pos d).masked = rx.masked := rfl
@[simp] theorem RxUnit.raise_len7 : (rx.raise c pos d).len7 = rx.len7 := rfl
@[simp] theorem RxUnit.raise_len : (rx.raise c pos d).len = rx.len := rfl
@[simp] theorem RxUnit.raise_key : (rx.raise c pos d).key = rx.key := rfl
@[simp] theorem RxUnit.raise_cnt : (rx.raise c pos d).cnt = rx.cnt := rfl
@[simp] theorem RxUnit.raise_errCause : (rx.raise c pos d).errCause = some c := rfl
@[simp] theorem RxUnit.raise_errPos : (rx.raise c pos d).errPos = pos := rfl
@[simp] theorem RxUnit.raise_errByte : (rx.raise c pos d).errByte = d := rfl

/-! ### What reset leaves -/

variable (r : Role)

@[simp] theorem State.resetAs_role : (State.resetAs r).role = r := rfl
@[simp] theorem State.resetAs_strap : (State.resetAs r).strap = r := rfl
@[simp] theorem State.resetAs_rx : (State.resetAs r).rx = RxUnit.cleared := rfl
@[simp] theorem State.resetAs_tx : (State.resetAs r).tx = TxUnit.cleared := rfl
@[simp] theorem State.resetAs_cmdErr : (State.resetAs r).cmdErr = CmdErr.cleared := rfl
@[simp] theorem State.resetAs_rxOut : (State.resetAs r).rxOut = [] := rfl
@[simp] theorem State.resetAs_txOut : (State.resetAs r).txOut = [] := rfl
@[simp] theorem State.resetAs_port : (State.resetAs r).port = [] := rfl
@[simp] theorem State.resetAs_responses : (State.resetAs r).responses = [] := rfl

/-- Power-on reset is reset at the strap's open level. -/
theorem State.reset_eq : State.reset = State.resetAs Config.roleStrap := rfl

end Sys2Proof.Machine
end

