-- ==== Sys2Proof/Laws/Ops.lean ====
section
/-! SUPPORT. For each shared operation, one lemma that says everything it can do: how a command ends, the three
error entries, the arms of RX_PUSH, the outcome of a step on each event, and the masking function. -/

namespace Sys2Proof.Machine

/-! ### Ending a command and the error entries -/

/-- `accept` answers the state with one more response, and nothing else. -/
theorem accept_eq_next {s t : State} : accept s = .next t ↔ s.respond true 0 = t := by
  simp [accept]

/-- `reject` answers the state with one more response, and nothing else. -/
theorem reject_eq_next {s t : State} : reject s = .next t ↔ s.respond false 0 = t := by
  simp [reject]

/-- The new TX_ERR of a refusal: the first cause stays (R210). -/
theorem refuseTx_eq_next {c : TxCause} {s t : State} :
    refuseTx c s = .next t ↔
      (s.setTx { s.tx with err := if s.tx.err = none then some c else s.tx.err }).respond false 0 = t := by
  simp [refuseTx, reject]

/-- The first illegal command is recorded (R214). -/
@[simp] theorem CmdErr.record_of_not_illegal {e : CmdErr} (h : e.illegal = false) (c : BitVec 4)
    (g : IllegalReason) : e.record c g = ⟨true, c, some g⟩ := by
  simp [CmdErr.record, h]

/-- Later illegal commands leave the record as it is (R214). -/
@[simp] theorem CmdErr.record_of_illegal {e : CmdErr} (h : e.illegal = true) (c : BitVec 4)
    (g : IllegalReason) : e.record c g = e := by
  simp [CmdErr.record, h]

/-- `ILLEGAL` is 1 after any illegal command (R214). -/
@[simp] theorem CmdErr.record_illegal (e : CmdErr) (c : BitVec 4) (g : IllegalReason) :
    (e.record c g).illegal = true := by
  unfold CmdErr.record
  split <;> simp_all

/-- An illegal command writes CMD_ERR and answers `accepted = 0` (R214). -/
theorem raiseIllegal_eq_next {c : BitVec 4} {g : IllegalReason} {s t : State} :
    raiseIllegal c g s = .next t ↔ (s.setCmdErr (s.cmdErr.record c g)).respond false 0 = t := by
  simp [raiseIllegal, reject]

/-! ### Masking -/

/-- An unmasked frame's bytes pass through (R103). -/
@[simp] theorem mask_false (b : Byte) (k : MaskKey) (i : Word64) : mask b k i false = b := by
  simp [mask]

/-- A masked frame's bytes are XORed with their lane's key byte (R100). -/
theorem mask_true (b : Byte) (k : MaskKey) (i : Word64) : mask b k i true = b ^^^ keyLane k (i.extractLsb' 0 2) := by
  simp [mask]

/-! ### RX_PUSH -/

/-- Everything one RX_PUSH can do: it consumes the byte in a header state or in PAYLOAD, and leaves all but the
response alone in DONE and ERROR (R140, R152, R153). -/
theorem rxPushByte_cases {d : Byte} {s t : State} (h : rxPushByte d s = .next t) :
    (∃ rx, t = (s.setRx rx).respond true 0 ∧
      ((s.rx.state = .hdr0 ∧ rx = rxHdr0 d s.rx) ∨ (s.rx.state = .hdr1 ∧ rx = rxHdr1 s.role d s.rx) ∨
       (s.rx.state = .extLen ∧ rx = rxExtLen d s.rx) ∨ (s.rx.state = .maskKey ∧ rx = rxMaskKey d s.rx))) ∨
    (s.rx.state = .payload ∧
      t = ((s.emitRx (mask d s.rx.key s.rx.cnt s.rx.masked)).setRx (rxPayload s.rx)).respond true 0) ∨
    ((s.rx.state = .done ∨ s.rx.state = .error) ∧ t = s.respond false 0) := by
  unfold rxPushByte at h
  split at h <;> simp_all [accept, reject]

/-- RX_PUSH answers a next state, whatever the state and the byte. -/
theorem rxPushByte_next (d : Byte) (s : State) : ∃ t, rxPushByte d s = .next t := by
  unfold rxPushByte
  split <;> simp [accept, reject]

/-! ### A step on each event -/

/-- With nothing presented the state is held (R224). -/
theorem step_idle {s : State} (h : s.port = []) : step s = .next s := by
  simp [step, h]

/-- A command word that decodes is performed. -/
theorem step_command {s : State} {c : Command} {rest : List HostEvent} {i : Instr}
    (hp : s.port = .command c :: rest) (hd : decodeAt s.atFrameStart c = .ok i) :
    step s = exec i (s.setPort rest) := by
  simp [step, hp, hd]

/-- A command word that spells no command is illegal (R184). -/
theorem step_rejected {s : State} {c : Command} {rest : List HostEvent} {e : CommandError}
    (hp : s.port = .command c :: rest) (hd : decodeAt s.atFrameStart c = .error e) :
    step s = rejectWord e (s.setPort rest) := by
  simp [step, hp, hd]

/-- Driving the strap (R232). -/
theorem step_strap {s : State} {r : Role} {rest : List HostEvent} (hp : s.port = .strap r :: rest) :
    step s = .next ((s.setPort rest).driveStrap r) := by
  simp [step, hp]

/-- Hardware reset (R231). -/
theorem step_hardReset {s : State} {rest : List HostEvent} (hp : s.port = .hardReset :: rest) :
    step s = .next (s.setPort rest).hardReset := by
  simp [step, hp]

end Sys2Proof.Machine
end

