-- ==== Sys2Proof/Laws/PerInstr.lean ====
section
/-! SUPPORT. Statements made for each instruction. The family TableRow: the encoder's words for an instruction
match that instruction's row of spec/opcode_table.json, its mask and its match. -/

namespace Sys2Proof.Laws

/-- The words of a well-formed instruction match its own row of the opcode table (R70, R81, R82). -/
def TableRow.Statement (i : Instr) : Prop := i.wellFormed = true → i.row.matches (encode i) = true

/-- A command word with one byte field has the fixed bits of its row, whatever the byte. -/
theorem encodeByteCommand_and_mask (code : BitVec 4) (d : Byte) :
    encodeByteCommand code d &&& 0xFFFFFFFFFFFFFFFFFFFFFFFFFFFF00FF#128 = 0#124 ++ code := by
  have h : 0xFFFFFFFFFFFFFFFFFFFFFFFFFFFF00FF#128 = BitVec.allOnes 112 ++ 0#8 ++ 0xF#4 ++ 0xF#4 := by decide
  rw [h, encodeByteCommand]
  iterate 3 rw [BitVec.and_append]
  rw [BitVec.and_zero, BitVec.and_allOnes]
  revert code
  decide

/-- TX_START's word has the fixed bits of its row, whatever the operands. -/
theorem encodeTxStart_and_mask (fin : Bool) (rsv : BitVec 3) (op : BitVec 4) (len : Word64) (key : MaskKey) :
    encodeTxStart fin rsv op len key &&& 0xFFFFF00F#128 = 4 := by
  have h : 0xFFFFF00F#128 = 0#64 ++ 0#32 ++ 0xFFFFF#20 ++ 0#4 ++ 0#3 ++ 0#1 ++ 0xF#4 := by decide
  rw [h, encodeTxStart]
  iterate 6 rw [BitVec.and_append]
  iterate 5 rw [BitVec.and_zero]
  decide

/-- A word with a reserved CODE has bit 3 set, whatever its other bits. -/
theorem reservedCode_and_mask (code : BitVec 4) (rest : BitVec 124) (h : 8#4 ≤ code) :
    (rest ++ code) &&& 0x8#128 = 8 := by
  have h8 : 0x8#128 = 0#124 ++ 8#4 := by decide
  have hc : code &&& 8#4 = 8#4 := by
    revert code
    decide
  rw [h8, BitVec.and_append, BitVec.and_zero, hc]
  decide

theorem TableRow.nop : TableRow.Statement .nop := by
  intro _
  decide

theorem TableRow.rxPush (d : Byte) : TableRow.Statement (.rxPush d) := by
  intro _
  simp only [encode, Instr.row, byteRow, Sys2Proof.TableRow.matches, encodeByteCommand_and_mask]
  decide

theorem TableRow.rxAck : TableRow.Statement .rxAck := by
  intro _
  decide

theorem TableRow.rxReset : TableRow.Statement .rxReset := by
  intro _
  decide

theorem TableRow.txStart (fin : Bool) (rsv : BitVec 3) (op : BitVec 4) (len : Word64) (key : MaskKey) :
    TableRow.Statement (.txStart fin rsv op len key) := by
  intro _
  simp only [encode, Instr.row, Sys2Proof.TableRow.matches, encodeTxStart_and_mask]
  decide

theorem TableRow.txPush (d : Byte) : TableRow.Statement (.txPush d) := by
  intro _
  simp only [encode, Instr.row, byteRow, Sys2Proof.TableRow.matches, encodeByteCommand_and_mask]
  decide

theorem TableRow.txReset : TableRow.Statement .txReset := by
  intro _
  decide

theorem TableRow.rdReg (d : Byte) : TableRow.Statement (.rdReg d) := by
  intro _
  simp only [encode, Instr.row, byteRow, Sys2Proof.TableRow.matches, encodeByteCommand_and_mask]
  decide

theorem TableRow.reservedCode (code : BitVec 4) (rest : BitVec 124) :
    TableRow.Statement (.reservedCode code rest) := by
  intro h
  simp only [encode, Instr.row, Sys2Proof.TableRow.matches,
    reservedCode_and_mask code rest (by simpa [Instr.wellFormed] using h)]
  decide

theorem TableRow.cont (fin : Bool) : TableRow.Statement (.cont fin) := by
  intro _
  revert fin
  decide

theorem TableRow.text (fin : Bool) : TableRow.Statement (.text fin) := by
  intro _
  revert fin
  decide

theorem TableRow.bin (fin : Bool) : TableRow.Statement (.bin fin) := by
  intro _
  revert fin
  decide

theorem TableRow.close : TableRow.Statement .close := by
  intro _
  decide

theorem TableRow.ping : TableRow.Statement .ping := by
  intro _
  decide

theorem TableRow.pong : TableRow.Statement .pong := by
  intro _
  decide

theorem TableRow.reservedOp3 (fin : Bool) (rsv : BitVec 3) : TableRow.Statement (.reservedOp3 fin rsv) := by
  intro _
  revert fin rsv
  decide

theorem TableRow.reservedOp4 (fin : Bool) (rsv : BitVec 3) : TableRow.Statement (.reservedOp4 fin rsv) := by
  intro _
  revert fin rsv
  decide

theorem TableRow.reservedOp5 (fin : Bool) (rsv : BitVec 3) : TableRow.Statement (.reservedOp5 fin rsv) := by
  intro _
  revert fin rsv
  decide

theorem TableRow.reservedOp6 (fin : Bool) (rsv : BitVec 3) : TableRow.Statement (.reservedOp6 fin rsv) := by
  intro _
  revert fin rsv
  decide

theorem TableRow.reservedOp7 (fin : Bool) (rsv : BitVec 3) : TableRow.Statement (.reservedOp7 fin rsv) := by
  intro _
  revert fin rsv
  decide

theorem TableRow.reservedOpB (fin : Bool) (rsv : BitVec 3) : TableRow.Statement (.reservedOpB fin rsv) := by
  intro _
  revert fin rsv
  decide

theorem TableRow.reservedOpC (fin : Bool) (rsv : BitVec 3) : TableRow.Statement (.reservedOpC fin rsv) := by
  intro _
  revert fin rsv
  decide

theorem TableRow.reservedOpD (fin : Bool) (rsv : BitVec 3) : TableRow.Statement (.reservedOpD fin rsv) := by
  intro _
  revert fin rsv
  decide

theorem TableRow.reservedOpE (fin : Bool) (rsv : BitVec 3) : TableRow.Statement (.reservedOpE fin rsv) := by
  intro _
  revert fin rsv
  decide

theorem TableRow.reservedOpF (fin : Bool) (rsv : BitVec 3) : TableRow.Statement (.reservedOpF fin rsv) := by
  intro _
  revert fin rsv
  decide

end Sys2Proof.Laws
end

