-- ==== Sys2Proof/Laws/Sequence.lean ====
section
/-! SUPPORT. Sequences of commands: one after the other, and one sequence after another (R62). -/

namespace Sys2Proof.Machine

@[simp] theorem execAll_nil (s : State) : execAll [] s = .next s := rfl

/-- The first command, then the rest. -/
theorem execAll_cons_of_next {i : Instr} {is : List Instr} {s t : State} (h : exec i s = .next t) :
    execAll (i :: is) s = execAll is t := by
  simp [execAll, h]

/-- A sequence after another is performed from where the first ended. -/
theorem execAll_append_of_next {is js : List Instr} {s t : State} (h : execAll is s = .next t) :
    execAll (is ++ js) s = execAll js t := by
  induction is generalizing s with
  | nil => simp_all
  | cons i is ih =>
    cases hi : exec i s with
    | next u =>
      rw [execAll_cons_of_next hi] at h
      rw [List.cons_append, execAll_cons_of_next hi, ih h]
    | fault r => exact nomatch r
    | refused r => simp [execAll, hi] at h

@[simp] theorem rxFeed_append (xs ys : List Byte) : rxFeed (xs ++ ys) = rxFeed xs ++ rxFeed ys := by
  simp [rxFeed]

@[simp] theorem rxFeed_cons (b : Byte) (bs : List Byte) : rxFeed (b :: bs) = .rxPush b :: rxFeed bs := rfl

end Sys2Proof.Machine
end

