-- ==== Sys2Proof/Tests/Slice0.lean ====
section
/-! SUPPORT. The model's own tests. Expected results are the spec's: the worked examples of its rules and the
vectors and programs of 95_test_vectors.md (M-, E-, D-, R-, P-), named at each test; each is one step. After them,
for every statement with hypotheses, a concrete state and operands that meet them. -/

namespace Sys2Proof.Tests

open Sys2Proof Sys2Proof.Machine

/-! ### Helpers -/

/-- Reset at a role, with the RX registers given. -/
def withRx (r : Role) (rx : RxUnit) : State := { State.resetAs r with rx := rx }

/-- Reset at a role, with the TX registers given. -/
def withTx (r : Role) (tx : TxUnit) : State := { State.resetAs r with tx := tx }

/-- Reset at a role, with RX in a state. -/
def rxIn (r : Role) (st : RxState) : State := withRx r { RxUnit.cleared with state := st }

/-- Reset at a role, with one event presented. -/
def presented (r : Role) (e : HostEvent) : State := { State.resetAs r with port := [e] }

/-- The RX registers after a byte 0 that was taken. -/
def rxAfterByte0 (b : Byte) : RxUnit :=
  { RxUnit.cleared with state := .hdr1, hpos := 1, b0 := b, fin := b.fin, opcode := b.opcode }

/-- The RX registers of a Client after `82 7E 00` (vector D-12, D-13). -/
def rxMidLength : RxUnit :=
  { RxUnit.cleared with
    state := .extLen, hpos := 3, b0 := 0x82, b1 := 0x7E, fin := true, opcode := 2, len7 := 126, extNeed := 2,
    extIdx := 1 }

/-- The RX registers of a Client after `82 7F` (vector D-14). -/
def rxLongLength : RxUnit :=
  { RxUnit.cleared with
    state := .extLen, hpos := 2, b0 := 0x82, b1 := 0x7F, fin := true, opcode := 2, len7 := 127, extNeed := 8 }

/-- The RX registers of a Server after `81 85 37 FA 21 3D` (vector D-2). -/
def rxHello : RxUnit :=
  { RxUnit.cleared with
    state := .payload, hpos := 6, keyIdx := 4, b0 := 0x81, b1 := 0x85, fin := true, opcode := 1, masked := true,
    len7 := 5, len := 5, key := ⟨0x37, 0xFA, 0x21, 0x3D⟩ }

/-- The TX registers of a Server that owes one byte of a Text frame of length 1. -/
def txOneOwed : TxUnit :=
  { TxUnit.cleared with state := .payload, b0 := 0x81, b1 := 0x01, fin := true, opcode := 1, len7 := 1, len := 1 }

/-- The outcome is a next state that passes. -/
def nextIs (o : Result) (p : State → Bool) : Bool :=
  match o with
  | .next t => p t
  | .fault _ => false
  | .refused _ => false

/-- The last response. -/
def lastResponse (s : State) : Option Response := s.responses.getLast?

/-! ### Well-formedness refuses -/

theorem test_wellFormed_refuses_defined_code : (Instr.reservedCode 7 0).wellFormed = false := by decide

theorem test_wellFormed_takes_reserved_code : (Instr.reservedCode 8 0).wellFormed = true := by decide

/-! ### Words written out from the encodings (R70, R72, R81, R82) -/

theorem test_decode_command_words :
    decode (.command 0x00000000000000000000000000000000#128) = some .nop ∧
    decode (.command 0x00000000000000000000000000008101#128) = some (.rxPush 0x81) ∧
    decode (.command 0x00000000000000000000000000000002#128) = some .rxAck ∧
    decode (.command 0x00000000000000000000000000000003#128) = some .rxReset ∧
    decode (.command 0x000000000000012CA1B2C3D400000214#128)
      = some (.txStart true 0 2 300 ⟨0xA1, 0xB2, 0xC3, 0xD4⟩) ∧
    decode (.command 0x00000000000000000000000000006105#128) = some (.txPush 0x61) ∧
    decode (.command 0x00000000000000000000000000000006#128) = some .txReset ∧
    decode (.command 0x00000000000000000000000000000907#128) = some (.rdReg 0x09) ∧
    decode (.command 0x00000000000000000000000000000008#128) = some (.reservedCode 8 0) := by
  decide

/-- FIN, then RSV, then OPCODE, bit by bit. -/
theorem test_decode_frame_bytes :
    decode (.frameByte0 0b10000000) = some (.cont true) ∧ decode (.frameByte0 0b00000001) = some (.text false) ∧
    decode (.frameByte0 0b10000010) = some (.bin true) ∧ decode (.frameByte0 0b10001000) = some .close ∧
    decode (.frameByte0 0b10001001) = some .ping ∧ decode (.frameByte0 0b10001010) = some .pong ∧
    decode (.frameByte0 0b10010011) = some (.reservedOp3 true 1) ∧
    decode (.frameByte0 0b00100100) = some (.reservedOp4 false 2) ∧
    decode (.frameByte0 0b01000101) = some (.reservedOp5 false 4) ∧
    decode (.frameByte0 0b10000110) = some (.reservedOp6 true 0) ∧
    decode (.frameByte0 0b01110111) = some (.reservedOp7 false 7) ∧
    decode (.frameByte0 0b00001011) = some (.reservedOpB false 0) ∧
    decode (.frameByte0 0b10001100) = some (.reservedOpC true 0) ∧
    decode (.frameByte0 0b00011101) = some (.reservedOpD false 1) ∧
    decode (.frameByte0 0b11111110) = some (.reservedOpE true 7) ∧
    decode (.frameByte0 0b00001111) = some (.reservedOpF false 0) := by
  decide

theorem test_decode_rejects_by_name :
    decodeCommand 0x00018101#128 = .error (.reservedBit 1) ∧ decodeCommand 0x00000100#128 = .error (.reservedBit 0) ∧
    decodeCommand 0x00001004#128 = .error (.reservedBit 4) ∧ decodeByte0 0xC1 = .error .rsvNonzero ∧
    decodeByte0 0x09 = .error .controlFragmented := by
  decide

/-! ### Stepping from reset, whatever the strap -/

theorem test_fetch_tx_start_after_reset :
    nextIs (step (State.reset.withFetchWord 32 0x4)) (fun t => lastResponse t == some ⟨true, 0⟩) = true := by decide

theorem test_fetch_text_after_reset :
    nextIs (step (State.reset.withFetchWord 8 0x81)) (fun t => t.rx.state == .hdr1 && t.rx.opcode == 1) = true := by
  decide

/-! ### The masking function (vectors M-1 to M-4, M-7) -/

theorem test_mask :
    mask 0x48 ⟨0x37, 0xFA, 0x21, 0x3D⟩ 0 true = 0x7F ∧ mask 0x00 ⟨0x37, 0xFA, 0x21, 0x3D⟩ 5 true = 0xFA ∧
    mask 0xA5 ⟨0x37, 0xFA, 0x21, 0x3D⟩ 2 false = 0xA5 ∧ mask 0xA5 ⟨0, 0, 0, 0⟩ 7 true = 0xA5 ∧
    mask 0xFF ⟨0xFF, 0xFF, 0xFF, 0xFF⟩ 0 true = 0 := by
  decide

/-! ### RX -/

/-- R141's example. -/
theorem test_rx_push_text :
    nextIs (exec (.rxPush 0x81) (State.resetAs .server))
      (fun t => t.rx.fin && t.rx.rsv == 0 && t.rx.opcode == 1 && t.rx.state == .hdr1) = true := by
  decide

/-- D-9: `F3` reports RSV_NONZERO, before the reserved opcode. -/
theorem test_reserved_op_3_with_rsv :
    nextIs (exec (.reservedOp3 true 7) (State.resetAs .client))
      (fun t => Reg.value .rxErr t == 0xF301 && Reg.value .rxStatus t == 0x146) = true := by
  decide

/-- D-8: `0B` reports OPCODE_RESERVED, before CONTROL_FRAGMENTED. -/
theorem test_reserved_op_b :
    nextIs (exec (.reservedOpB false 0) (State.resetAs .client))
      (fun t => Reg.value .rxErr t == 0x0B02 && Reg.value .rxStatus t == 0x1C6) = true := by
  decide

/-- R143's example: `85` after `81` at a Server. -/
theorem test_rx_push_byte_one :
    nextIs (exec (.rxPush 0x85) (withRx .server (rxAfterByte0 0x81)))
      (fun t => t.rx.masked && t.rx.len == 5 && t.rx.state == .maskKey) = true := by
  decide

/-- D-11: at a Server `89 7E` reports UNMASKED, before CONTROL_TOO_LONG. -/
theorem test_unmasked_before_too_long :
    nextIs (exec (.rxPush 0x7E) (withRx .server (rxAfterByte0 0x89)))
      (fun t => Reg.value .rxErr t == 0x7E14 && Reg.value .rxStatus t == 0x2C6) = true := by
  decide

/-- D-17: LEN7 = 0 without a mask is a whole frame. -/
theorem test_empty_frame_is_done :
    nextIs (exec (.rxPush 0x00) (withRx .client (rxAfterByte0 0x88)))
      (fun t => Reg.value .rxStatus t == 0x2B5) = true := by
  decide

/-- D-12: `82 7E 00 7D` is over-wide. -/
theorem test_over_wide_length :
    nextIs (exec (.rxPush 0x7D) (withRx .client rxMidLength))
      (fun t => Reg.value .rxErr t == 0x7D37 && Reg.value .rxStatus t == 0x202446 && t.rx.len == 125) = true := by
  decide

/-- R146's example: `82 7E 00 7E`. -/
theorem test_sixteen_bit_length :
    nextIs (exec (.rxPush 0x7E) (withRx .client rxMidLength))
      (fun t => t.rx.len == 126 && t.rx.state == .payload) = true := by
  decide

/-- D-14: `82 7F 80`. -/
theorem test_length_msb_set :
    nextIs (exec (.rxPush 0x80) (withRx .client rxLongLength))
      (fun t => Reg.value .rxErr t == 0x8028 && Reg.value .rxStatus t == 0x801346 && t.rx.len == 128) = true := by
  decide

/-- R150: the fourth key byte of D-2. -/
theorem test_fourth_key_byte :
    nextIs (exec (.rxPush 0x3D)
        (withRx .server { rxHello with state := .maskKey, hpos := 5, keyIdx := 3, key := ⟨0x37, 0xFA, 0x21, 0⟩ }))
      (fun t => Reg.value .rxKey t == 0x37FA213D && t.rx.state == .payload && t.rx.hpos == 6) = true := by
  decide

/-- R151's example. -/
theorem test_rx_payload_byte :
    nextIs (exec (.rxPush 0x7F) (withRx .server rxHello))
      (fun t => t.rxOut == [0x48] && t.rx.cnt == 1 && t.rx.state == .payload) = true := by
  decide

/-- R-1: the registers of D-2 in DONE; the last payload byte is lane 0 again. -/
theorem test_rx_last_payload_byte :
    nextIs (exec (.rxPush 0x58) (withRx .server { rxHello with cnt := 4 }))
      (fun t => t.rxOut == [0x6F] && Reg.value .rxStatus t == 0x40635 && Reg.value .rxHdr t == 0xB118185) = true := by
  decide

/-- R154's example: RX_ACK in DONE; D-24: RX_ACK at reset. -/
theorem test_rx_ack :
    nextIs (exec .rxAck (rxIn .client .done)) (fun t => t.rx == RxUnit.cleared && lastResponse t == some ⟨true, 0⟩) ∧
    nextIs (exec .rxAck (State.resetAs .client)) (fun t => lastResponse t == some ⟨false, 0⟩) := by
  decide

/-- R155: RX_RESET leaves ERROR; CMD_ERR is not touched. -/
theorem test_rx_reset :
    nextIs (exec .rxReset { rxIn .client .error with cmdErr := ⟨true, 8, some .reservedCode⟩ })
      (fun t => t.rx == RxUnit.cleared && Reg.value .cmdErr t == 0x181) = true := by
  decide

/-! ### TX -/

/-- E-9: a Client's empty Ping carries its key. -/
theorem test_tx_start_empty_ping :
    nextIs (exec (.txStart true 0 9 0 ⟨1, 2, 3, 4⟩) (State.resetAs .client))
      (fun t => t.txOut == [0x89, 0x80, 1, 2, 3, 4] && Reg.value .txHdr t == 0x1918980 && t.tx.state == .idle)
      = true := by
  decide

/-- E-7: the largest length. -/
theorem test_tx_start_largest_length :
    nextIs (exec (.txStart true 0 2 0x7FFFFFFFFFFFFFFF ⟨1, 2, 3, 4⟩) (State.resetAs .client))
      (fun t => t.txOut == [0x82, 0xFF, 0x7F, 0xFF, 0xFF, 0xFF, 0xFF, 0xFF, 0xFF, 0xFF, 1, 2, 3, 4] &&
        Reg.value .txHdr t == 0xFF2182FF) = true := by
  decide

/-- R116's example. -/
theorem test_tx_push :
    nextIs (exec (.txPush 0x48) (withTx .client { txOneOwed with masked := true, key := ⟨0x37, 0xFA, 0x21, 0x3D⟩ }))
      (fun t => t.txOut == [0x7F] && t.tx.state == .idle) = true := by
  decide

/-- E-18: TX_PUSH with no frame; R119's example: TX_RESET after it. -/
theorem test_tx_no_frame_and_reset :
    nextIs (exec (.txPush 0x41) (State.resetAs .server))
      (fun t => Reg.value .txStatus t == 0x70 && t.txOut == [] &&
        nextIs (exec .txReset t) (fun u => Reg.value .txStatus u == 0)) = true := by
  decide

/-! ### The port -/

/-- R-4 and R-7: RD_REG of an unmapped index; NOP. -/
theorem test_rd_reg_unmapped_and_nop :
    nextIs (exec (.rdReg 0x11) (State.resetAs .client))
      (fun t => Reg.value .cmdErr t == 0x371 && lastResponse t == some ⟨false, 0⟩) ∧
    nextIs (exec .nop (State.resetAs .client)) (fun t => t.responses == [⟨true, 0⟩]) := by
  decide

/-- R-2: CFG shows a Server's ROLE. -/
theorem test_rd_reg_cfg :
    nextIs (exec (.rdReg 0x00) (State.resetAs .server)) (fun t => t.responses == [⟨true, 1⟩]) = true := by decide

/-- R-5 and R-6: a reserved CODE; a reserved bit, whose byte is not consumed. -/
theorem test_illegal_words :
    nextIs (step (presented .client (.command 0x8))) (fun t => Reg.value .cmdErr t == 0x181) ∧
    nextIs (step (presented .client (.command 0x18101)))
      (fun t => Reg.value .cmdErr t == 0x211 && t.rx == RxUnit.cleared && t.responses == [⟨false, 0⟩]) := by
  decide

/-- R232: the strap reaches ROLE at hardware reset. -/
theorem test_strap_then_reset :
    nextIs (step (presented .client (.strap .server))) (fun t => t.role == .client &&
      nextIs (step { t with port := [.hardReset] }) (fun u => u.role == .server)) = true := by
  decide

/-! ### The assembler (program P2, commands 1 and 9) -/

theorem test_assemble_tx_start :
    assembleLine "TX_START fin=0, rsv=0, op=TEXT, len=3, key=0x01020304 ; P2".toList
      = some [.txStart false 0 1 3 ⟨1, 2, 3, 4⟩] := by
  decide

theorem test_assemble_rd_reg : assembleLine "RD_REG TX_STATUS".toList = some [.rdReg 0x09] := by decide

/-! ### Witnesses: a state and operands that meet the hypotheses of each statement -/

theorem witness_DecodeOfEncode :
    (Instr.reservedCode 8 0).wellFormed = true ∧ (Instr.reservedCode 15 5).wellFormed = true := by decide

theorem witness_EncodeOfDecode : decode (.command 0x8101) = some (.rxPush 0x81) := by decide

theorem witness_DecodersFollowTheOpcodeTable :
    decode (.frameByte0 0x80) = some (.cont true) ∧ (Instr.cont true).row.matches (.frameByte0 0x80) = true ∧
    (Instr.reservedCode 8 0).row.matches (.command 0xF) = true := by
  decide

theorem witness_StepRunsThePresentedInstruction :
    (Instr.text true).wellFormed = true ∧
    (presented .client (.command 0x8101)).port = .command (encode (.text true)).presented :: [] ∧
    (presented .client (.command 0x8101)).rx.state = .hdr0 ∧
    (presented .client (.command 0x2)).port = .command (encode .rxAck).presented :: [] ∧
    (encode .rxAck).isFrameByte0 = false := by
  decide

theorem witness_FrameByte0IsItsRxPush : decode (.frameByte0 0x88) = some .close := by decide

theorem witness_FetchWordIsPerformedNext :
    decodeTableWord 8 0x81 = some (.text true) ∧ (State.resetAs .client).rx.state = .hdr0 ∧
    decodeTableWord 128 0x2 = some .rxAck ∧ (tableWord 128 0x2).isFrameByte0 = false ∧
    (tableWord 8 0x81).isFrameByte0 = true ∧ (rxIn .client .done).rx.state ≠ .hdr0 := by
  decide

theorem witness_EventsOtherThanCommands :
    (State.resetAs .client).port = [] ∧ (presented .client (.strap .server)).port = .strap .server :: [] ∧
    (presented .client .hardReset).port = .hardReset :: [] := by
  decide

theorem witness_HardwareResetEffect : (presented .client .hardReset).port = .hardReset :: [] := by decide

theorem witness_RoleHeldBetweenResets :
    step (presented .client (.strap .server))
      = .next { State.resetAs .client with strap := .server } ∧
    ∀ rest, (presented .client (.strap .server)).port ≠ .hardReset :: rest := by
  exact ⟨rfl, by simp [presented]⟩

theorem witness_RxPushByteZero :
    (State.resetAs .client).rx.state = .hdr0 ∧
    (0xC1#8).extractLsb' 4 3 ≠ 0 ∧
    ((0x03#8).extractLsb' 4 3 = 0 ∧ (0x03#8).extractLsb' 0 4 ∉ [0x0#4, 0x1#4, 0x2#4, 0x8#4, 0x9#4, 0xA#4]) ∧
    ((0x09#8).extractLsb' 4 3 = 0 ∧ (0x09#8).extractLsb' 0 4 ∈ [0x0#4, 0x1#4, 0x2#4, 0x8#4, 0x9#4, 0xA#4] ∧
      (0x09#8).getLsbD 3 = true ∧ (0x09#8).getLsbD 7 = false) ∧
    ((0x8A#8).extractLsb' 4 3 = 0 ∧ (0x8A#8).extractLsb' 0 4 ∈ [0x0#4, 0x1#4, 0x2#4, 0x8#4, 0x9#4, 0xA#4] ∧
      (0x8A#8).getLsbD 7 = true) := by
  decide

theorem witness_DataFrameByteZero : (State.resetAs .client).rx.state = .hdr0 := by decide

theorem witness_ControlFrameByteZero : (State.resetAs .server).rx.state = .hdr0 := by decide

theorem witness_ReservedOpcodeByteZero : (State.resetAs .client).rx.state = .hdr0 := by decide

theorem witness_RxPushByteOne :
    ((rxIn .server .hdr1).rx.state = .hdr1 ∧ (rxIn .server .hdr1).role = .server ∧ (0x7F#8).getLsbD 7 = false) ∧
    ((rxIn .client .hdr1).rx.state = .hdr1 ∧ (rxIn .client .hdr1).role = .client ∧ (0x80#8).getLsbD 7 = true) ∧
    (((0x7E#8).getLsbD 7 = true ↔ (withRx .client (rxAfterByte0 0x89)).role = .server) ∧
      (withRx .client (rxAfterByte0 0x89)).rx.state = .hdr1 ∧
      (withRx .client (rxAfterByte0 0x89)).rx.opcode.getLsbD 3 = true ∧ 125 < ((0x7E#8).extractLsb' 0 7).toNat) ∧
    (((0x7D#8).getLsbD 7 = true ↔ (rxIn .client .hdr1).role = .server) ∧ ((0x7D#8).extractLsb' 0 7).toNat ≤ 125 ∧
      ¬ ((rxIn .client .hdr1).rx.opcode.getLsbD 3 = true ∧ 125 < ((0x7D#8).extractLsb' 0 7).toNat)) ∧
    (((0xFE#8).getLsbD 7 = true ↔ (rxIn .server .hdr1).role = .server) ∧ ((0xFE#8).extractLsb' 0 7).toNat = 126 ∧
      ¬ ((rxIn .server .hdr1).rx.opcode.getLsbD 3 = true ∧ 125 < ((0xFE#8).extractLsb' 0 7).toNat)) ∧
    (((0x7F#8).getLsbD 7 = true ↔ (rxIn .client .hdr1).role = .server) ∧ ((0x7F#8).extractLsb' 0 7).toNat = 127 ∧
      ¬ ((rxIn .client .hdr1).rx.opcode.getLsbD 3 = true ∧ 125 < ((0x7F#8).extractLsb' 0 7).toNat)) := by
  decide

/-- LEN_MSB_SET at `80`; a byte that is not the last; 125 and 126 in the 16-bit form. -/
theorem witness_RxPushExtendedLength :
    (rxLongLength.state = .extLen ∧ rxLongLength.extNeed = 8 ∧ rxLongLength.extIdx = 0 ∧
      (0x80#8).getLsbD 7 = true) ∧
    (¬ (rxLongLength.extNeed = 8 ∧ rxLongLength.extIdx = 0 ∧ (0x7F#8).getLsbD 7 = true) ∧
      rxLongLength.extIdx + 1 ≠ rxLongLength.extNeed) ∧
    (rxMidLength.state = .extLen ∧
      ¬ (rxMidLength.extNeed = 8 ∧ rxMidLength.extIdx = 0 ∧ (0x7D#8).getLsbD 7 = true) ∧
      rxMidLength.extIdx + 1 = rxMidLength.extNeed ∧ rxMidLength.extNeed = 2 ∧
      (rxMidLength.len <<< 8 ||| (0x7D#8).setWidth 64).toNat < 126) ∧
    ¬ ((rxMidLength.extNeed = 2 ∧ (rxMidLength.len <<< 8 ||| (0x7E#8).setWidth 64).toNat < 126) ∨
       (rxMidLength.extNeed = 8 ∧ (rxMidLength.len <<< 8 ||| (0x7E#8).setWidth 64).toNat < 65536)) := by
  decide

/-- The Client of vector D-13 keeps the invariant after `82 7E 00`. -/
theorem inv_mid_length : Inv (withRx .client rxMidLength) := by
  refine ⟨?_, ?_, .inl rfl⟩
  · show HeaderAccepted _ _ ∧ NoKeyOrPayload _ ∧ NoRxError _ ∧ LengthPartial _ ∧ HposCounts _
    simp only [HeaderAccepted, Byte0Fields, Byte1Fields, NoKeyOrPayload, NoRxError, LengthPartial, HposCounts]
    decide
  · exact ⟨.inl rfl, by decide, by decide, by decide⟩

theorem witness_ExtendedLengthComplete :
    ∃ t, Inv (withRx .client rxMidLength) ∧ (withRx .client rxMidLength).rx.state = .extLen ∧
      exec (.rxPush 0x7E) (withRx .client rxMidLength) = .next t ∧ t.rx.extIdx = t.rx.extNeed ∧
      t.rx.state ≠ .error :=
  ⟨_, inv_mid_length, rfl, rfl, by decide, by decide⟩

theorem witness_RxPushMaskKey :
    ∀ j : BitVec 3, j < 4#3 → (withRx .server { rxHello with state := .maskKey, keyIdx := j }).rx.state = .maskKey ∧
      (withRx .server { rxHello with state := .maskKey, keyIdx := j }).rx.keyIdx = j := by
  decide

theorem witness_RxPushPayload : (withRx .server rxHello).rx.state = .payload := by decide

theorem witness_RxPushNotConsumed : (rxIn .client .done).rx.state = .done ∧ (rxIn .client .error).rx.state = .error := by
  decide

theorem witness_RxAckEffect : (rxIn .client .done).rx.state = .done ∧ (rxIn .client .error).rx.state ≠ .done := by decide

/-- A Client at reset, presented one command, keeps the invariant. -/
theorem inv_reset_tx : TxInv .client TxUnit.cleared :=
  ⟨.inl rfl, by decide, by decide, by decide⟩

theorem inv_presented (e : HostEvent) : Inv (presented .client e) :=
  ⟨rfl, inv_reset_tx, .inl rfl⟩

theorem witness_ProtocolErrorIsRaisedOnAHeaderByte :
    ∃ t, Inv (presented .client (.command 0xC101)) ∧ step (presented .client (.command 0xC101)) = .next t ∧
      (presented .client (.command 0xC101)).rx.state ≠ .error ∧ t.rx.state = .error :=
  ⟨_, inv_presented _, rfl, by decide, by decide⟩

theorem witness_ErrorIsLeftOnlyByReset :
    ∃ t, step { rxIn .client .error with port := [.command 0x3] } = .next t ∧
      ({ rxIn .client .error with port := [.command 0x3] } : State).rx.state = .error :=
  ⟨_, rfl, rfl⟩

theorem witness_TxStartAccepted :
    (State.resetAs .client).tx.state = .idle ∧ (0x8#4) ∈ [0x0#4, 0x1#4, 0x2#4, 0x8#4, 0x9#4, 0xA#4] ∧
    ((0x8#4).getLsbD 3 = true → true = true ∧ (125#64).toNat ≤ 125) ∧ (125#64).toNat < 2 ^ 63 ∧
    (0x2#4) ∈ [0x0#4, 0x1#4, 0x2#4, 0x8#4, 0x9#4, 0xA#4] ∧
    ((0x2#4).getLsbD 3 = true → true = true ∧ (0x7FFFFFFFFFFFFFFF#64).toNat ≤ 125) ∧
    (0x7FFFFFFFFFFFFFFF#64).toNat < 2 ^ 63 := by
  decide

theorem witness_TxStartRefused :
    (withTx .server txOneOwed).tx.state = .payload ∧ (State.resetAs .server).tx.state = .idle ∧ (1#3 ≠ 0) ∧
    (0x3#4) ∉ [0x0#4, 0x1#4, 0x2#4, 0x8#4, 0x9#4, 0xA#4] ∧
    ((0x9#4) ∈ [0x0#4, 0x1#4, 0x2#4, 0x8#4, 0x9#4, 0xA#4] ∧ (0x9#4).getLsbD 3 = true) ∧
    125 < (126#64).toNat ∧
    ((0x2#4) ∈ [0x0#4, 0x1#4, 0x2#4, 0x8#4, 0x9#4, 0xA#4] ∧ ¬ (0x2#4).getLsbD 3 = true) ∧
    2 ^ 63 ≤ (0x8000000000000000#64).toNat := by
  decide

theorem witness_TxPushEffect :
    (withTx .server txOneOwed).tx.state = .payload ∧ (State.resetAs .server).tx.state = .idle := by decide

/-- A Server that owes one byte keeps the invariant. -/
theorem inv_one_owed : Inv (withTx .server txOneOwed) := by
  refine ⟨rfl, ⟨.inr ?_, by decide, by decide, by decide⟩, .inl rfl⟩
  simp only [TxFrameLatched]
  decide

theorem witness_TxFrameTakesExactlyItsLength :
    Inv (withTx .server txOneOwed) ∧ (withTx .server txOneOwed).tx.state = .payload ∧
      (withTx .server txOneOwed).tx.cnt.toNat + [0x41#8].length = (withTx .server txOneOwed).tx.len.toNat :=
  ⟨inv_one_owed, rfl, rfl⟩

theorem witness_TxErrIsClearedOnlyByReset :
    ∃ t, step { withTx .server { txOneOwed with err := some .busy } with port := [.command 0x6] } = .next t ∧
      (withTx .server { txOneOwed with err := some .busy }).tx.err ≠ none :=
  ⟨_, rfl, by decide⟩

theorem witness_RdRegEffect : Reg.cmdErr.index = 0x10 ∧ (0x10#8).toNat ≤ 0x10 ∧ 0x10 < (0x11#8).toNat := by decide

theorem witness_ReservedCodeIsIllegal : 8#4 ≤ 8#4 ∧ 8#4 ≤ 15#4 := by decide

/-- One word for each clause: CODE 8; a NOP with bit 4; RD_REG of 0x11; RD_REG of 0x10. -/
theorem witness_IllegalCommandWords :
    (presented .client (.command 0x8)).port = .command 0x8 :: [] ∧ 8 ≤ (0x8#128).toNat % 16 ∧
    ((0x10#128).toNat % 16 < 8 ∧ (0x10#128).getLsbD 4 = true ∧ (0x10#128).toNat % 16 ∈ [0, 2, 3, 6]) ∧
    ((0x1107#128).toNat % 16 = 7 ∧ 0x10 < (0x1107#128).toNat / 256 % 256) ∧
    ((0x1007#128).toNat % 16 = 7 ∧ ¬ 0x10 < (0x1007#128).toNat / 256 % 256) := by
  decide

/-- The two RD_REG words have no reserved bit set. -/
theorem witness_IllegalCommandWords_unreserved (c : Command) (h : c = 0x1107 ∨ c = 0x1007) :
    ¬ ∃ i, c.getLsbD i = true ∧
      ((c.toNat % 16 ∈ [0, 2, 3, 6] ∧ 4 ≤ i) ∨ (c.toNat % 16 ∈ [1, 5, 7] ∧ ((4 ≤ i ∧ i < 8) ∨ 16 ≤ i)) ∨
       (c.toNat % 16 = 4 ∧ 12 ≤ i ∧ i < 32)) := by
  rintro ⟨i, hi, hr⟩
  have hlt : i < 128 := BitVec.lt_of_getLsbD hi
  have none_set : ∀ j : Fin 128, (4 ≤ j.val ∧ j.val < 8) ∨ 16 ≤ j.val →
      (0x1107#128).getLsbD j = false ∧ (0x1007#128).getLsbD j = false := by decide
  rcases h with rfl | rfl <;>
  · simp only [show (0x1107 : Command).toNat % 16 = 7 from rfl, show (0x1007 : Command).toNat % 16 = 7 from rfl] at hr
    have hcase : (4 ≤ i ∧ i < 8) ∨ 16 ≤ i := by simpa using hr
    have hfalse := none_set ⟨i, hlt⟩ hcase
    simp_all

theorem witness_CmdErrIsSticky :
    ∃ t, step { presented .client (.command 0x0) with cmdErr := ⟨true, 8, some .reservedCode⟩ } = .next t ∧
      (∀ rest, (presented .client (.command 0x0)).port ≠ .hardReset :: rest) :=
  ⟨_, rfl, by simp [presented]⟩

theorem witness_FourBytesMaskAsOneWord : (4#64).toNat % 4 = 0 := by decide

theorem witness_StepKeepsTheInvariant :
    ∃ t, Inv (presented .client (.command 0x8901)) ∧ step (presented .client (.command 0x8901)) = .next t :=
  ⟨_, inv_presented _, rfl⟩

theorem witness_CounterBounds : Inv (withRx .client rxMidLength) := inv_mid_length

theorem witness_StreamsOnlyGrow : ∃ t, step (presented .client (.command 0x8901)) = .next t := ⟨_, rfl⟩

theorem witness_RxAndTxCommandsCommute :
    (∃ d, Instr.rxPush 0x81 = .rxPush d) ∧ (∃ d, Instr.txPush 0x41 = .txPush d) := ⟨⟨_, rfl⟩, ⟨_, rfl⟩⟩

theorem witness_UnitsReadOnlyTheirOwnRegisters :
    (rxIn .client .done).role = (State.resetAs .client).role ∧
    (withTx .client txOneOwed).rx = (State.resetAs .client).rx ∧
    (rxIn .client .done).tx = (State.resetAs .client).tx := by
  decide

/-- An RX_PUSH outside HDR1, and an RX_RESET in HDR1. -/
theorem witness_RoleSelectsMaskingOnly :
    ((∀ fin rsv op len key, Instr.rxPush 0x81 ≠ .txStart fin rsv op len key) ∧ Instr.rxPush 0x81 ≠ .rdReg 0x00 ∧
      (State.resetAs .client).rx.state ≠ .hdr1) ∧
    (∀ fin rsv op len key, Instr.rxReset ≠ .txStart fin rsv op len key) ∧ Instr.rxReset ≠ .rdReg 0x00 ∧
    (rxIn .client .hdr1).rx.state = .hdr1 ∧ (∀ d, Instr.rxReset ≠ .rxPush d) ∧
    (encode .rxReset).isFrameByte0 = false :=
  ⟨⟨fun _ _ _ _ _ h => (nomatch h), by decide, by decide⟩, fun _ _ _ _ _ h => (nomatch h), by decide, rfl,
    fun _ h => (nomatch h), rfl⟩

/-- P3 command 1, R-11 (TX_PUSH in IDLE) and R-5 each record their own error. -/
theorem witness_CommandRecordsAtMostOneError :
    (∃ t, step (presented .server (.command 0x0901)) = .next t ∧ t.rx.errCause ≠ none ∧
      t.rx.errCause ≠ (presented .server (.command 0x0901)).rx.errCause) ∧
    (∃ t, step (presented .server (.command 0x4105)) = .next t ∧ t.tx.err ≠ none ∧
      t.tx.err ≠ (presented .server (.command 0x4105)).tx.err) ∧
    (∃ t, step (presented .client (.command 0x8)) = .next t ∧
      t.cmdErr ≠ (presented .client (.command 0x8)).cmdErr) :=
  ⟨⟨_, rfl, by decide, by decide⟩, ⟨_, rfl, by decide, by decide⟩, ⟨_, rfl, by decide⟩⟩

theorem witness_InstancesShareNoState :
    ∃ a b c d, stepInstance 0 [presented .client (.command 0x8901), presented .server .hardReset] = .next a ∧
      stepInstance 1 a = .next b ∧
      stepInstance 1 [presented .client (.command 0x8901), presented .server .hardReset] = .next c ∧
      stepInstance 0 c = .next d ∧ (0 : Nat) ≠ 1 :=
  ⟨_, _, _, _, rfl, rfl, rfl, rfl, by decide⟩

/-- The Client's masked "Hello" (L1-7). -/
def hello : Frame := ⟨true, 0, 1, true, ⟨0x37, 0xFA, 0x21, 0x3D⟩, [0x48, 0x65, 0x6C, 0x6C, 0x6F]⟩

theorem hello_encodable : hello.Encodable := ⟨rfl, rfl, by decide, by decide, by decide⟩

theorem witness_EncoderEmitsTheFrame : hello.Encodable ∧ (State.resetAs .client).tx.state = .idle :=
  ⟨hello_encodable, rfl⟩

theorem witness_DecodeOfEncodedFrame :
    hello.Encodable ∧ (State.resetAs .client).tx.state = .idle ∧ (State.resetAs .server).rx = RxUnit.cleared ∧
      (State.resetAs .server).role = (State.resetAs .client).role.opposite ∧
      (State.resetAs .client).role = (State.resetAs .client).role :=
  ⟨hello_encodable, rfl, rfl, rfl, rfl⟩

/-- D-2: the masked "Hello" is valid at a Server; its first byte alone is not all of it. -/
theorem witness_DecoderAcceptsValidFrames :
    (State.resetAs .server).rx = RxUnit.cleared ∧
    ValidFrame (State.resetAs .server).role 0x81 0x85 [] [0x37, 0xFA, 0x21, 0x3D] [0x7F, 0x9F, 0x4D, 0x51, 0x58] ∧
    [0x81#8] ++ [0x85, 0x37, 0xFA, 0x21, 0x3D, 0x7F, 0x9F, 0x4D, 0x51, 0x58]
      = frameBytes 0x81 0x85 [] [0x37, 0xFA, 0x21, 0x3D] [0x7F, 0x9F, 0x4D, 0x51, 0x58] :=
  ⟨rfl, ⟨by decide, by decide, by decide, by decide, by decide, by decide, by decide, by decide, by decide, by decide⟩,
    rfl⟩

/-- D-5: no beginning of `C1` is a valid frame. -/
theorem witness_DecoderRejectsOrAwaits :
    (State.resetAs .client).rx = RxUnit.cleared ∧
    ∀ taken left, taken ++ left = [0xC1#8] → ¬ IsValidFrame (State.resetAs .client).role taken := by
  refine ⟨rfl, ?_⟩
  rintro taken left h ⟨b0, b1, ext, key, payload, rfl, -⟩
  have hlen := congrArg List.length h
  simp [frameBytes] at hlen

/-- L1-3 and D-17: a Client takes the empty Close `88 00` to DONE. -/
theorem witness_EncodeOfDecodedFrame :
    ∃ t, (State.resetAs .client).rx = RxUnit.cleared ∧ execAll (rxFeed [0x88, 0x00]) (State.resetAs .client) = .next t ∧
      t.rx.state = .done ∧
      t.responses = (State.resetAs .client).responses ++ List.replicate 2 ⟨true, 0⟩ ∧
      t.rxOut = (State.resetAs .client).rxOut ++ [] ∧
      (State.resetAs .server).role = (State.resetAs .client).role.opposite ∧
      (State.resetAs .server).tx.state = .idle :=
  ⟨_, rfl, rfl, by decide, by decide, by decide, rfl, rfl⟩

end Sys2Proof.Tests
end

section
/-! PROOFS. The register map (spec 10_state.md R32): what each field of each register word reads, and the codes that
software reads there as numbers. -/

/-! ### The fields of the register words

A field of a word is found by passing the fields below it. `Nat.reduceAdd` stays off, so that the width of what
stands above a field keeps the form `v + w` that the library's lemmas on `++` match. -/

namespace Sys2Proof

/-- A packed key, byte by byte (R55): RX_KEY and TX_KEY. -/
theorem MaskKey.pack_fields (k : MaskKey) :
    k.pack.extractLsb' 24 8 = k.k0 ∧ k.pack.extractLsb' 16 8 = k.k1 ∧
      k.pack.extractLsb' 8 8 = k.k2 ∧ k.pack.extractLsb' 0 8 = k.k3 := by
  have h := MaskKey.unpack_pack k
  rwa [MaskKey.unpack, MaskKey.mk.injEq] at h

end Sys2Proof

namespace Sys2Proof.Machine

/-- CFG shows ROLE in bit 0 and nothing else (R32). -/
theorem Reg.cfg_fields (s : State) :
    (Reg.value .cfg s).extractLsb' 0 1 = BitVec.ofBool s.role.bit ∧ (Reg.value .cfg s).extractLsb' 1 31 = 0 :=
  ⟨BitVec.extractLsb'_append_eq_right, BitVec.extractLsb'_append_eq_left⟩

/-- The fields of RX_STATUS that are wider than one bit (R32). -/
theorem RxUnit.statusWord_fields (rx : RxUnit) :
    rx.statusWord.extractLsb' 0 3 = rx.state.code ∧ rx.statusWord.extractLsb' 8 4 = rx.hpos ∧
      rx.statusWord.extractLsb' 12 4 = rx.extIdx ∧ rx.statusWord.extractLsb' 16 3 = rx.keyIdx ∧
      rx.statusWord.extractLsb' 20 4 = rx.extNeed ∧ rx.statusWord.extractLsb' 24 8 = 0 := by
  refine ⟨?_, ?_, ?_, ?_, ?_, ?_⟩ <;> rw [RxUnit.statusWord, BitVec.extractLsb'_append_eq_ite] <;>
    simp [BitVec.extractLsb'_append_eq_ite, -Nat.reduceAdd]

/-- The flags of RX_STATUS and its reserved bit 19 (R27, R32). -/
theorem RxUnit.statusWord_flags (rx : RxUnit) :
    rx.statusWord.getLsbD 3 = rx.needMore ∧ rx.statusWord.getLsbD 4 = rx.hdrValid ∧
      rx.statusWord.getLsbD 5 = rx.isDone ∧ rx.statusWord.getLsbD 6 = rx.isError ∧
      rx.statusWord.getLsbD 7 = rx.isControlFrame ∧ rx.statusWord.getLsbD 19 = false := by
  refine ⟨?_, ?_, ?_, ?_, ?_, ?_⟩ <;> rw [RxUnit.statusWord, BitVec.getLsbD_append] <;>
    simp [BitVec.getElem_append, -Nat.reduceAdd]

/-- The layout that RX_HDR and TX_HDR share (R32). -/
theorem hdrWord_fields (len7 : BitVec 7) (masked : Bool) (opcode : BitVec 4) (rsv : BitVec 3) (fin : Bool)
    (b0 b1 : Byte) :
    let w := len7 ++ BitVec.ofBool masked ++ opcode ++ rsv ++ BitVec.ofBool fin ++ b0 ++ b1
    w.extractLsb' 0 8 = b1 ∧ w.extractLsb' 8 8 = b0 ∧ w.getLsbD 16 = fin ∧ w.extractLsb' 17 3 = rsv ∧
      w.extractLsb' 20 4 = opcode ∧ w.getLsbD 24 = masked ∧ w.extractLsb' 25 7 = len7 := by
  simp [BitVec.getElem_append, BitVec.extractLsb'_append_eq_ite, -Nat.reduceAdd]

/-- RX_ERR, field by field (R32). -/
theorem RxUnit.errWord_fields (rx : RxUnit) :
    rx.errWord.extractLsb' 0 4 = errCauseCode rx.errCause ∧ rx.errWord.extractLsb' 4 4 = rx.errPos ∧
      rx.errWord.extractLsb' 8 8 = rx.errByte ∧ rx.errWord.extractLsb' 16 16 = 0 := by
  refine ⟨?_, ?_, ?_, ?_⟩ <;> rw [RxUnit.errWord, BitVec.extractLsb'_append_eq_ite] <;>
    simp [BitVec.extractLsb'_append_eq_ite, -Nat.reduceAdd]

/-- TX_STATUS, field by field (R29, R32). -/
theorem TxUnit.statusWord_fields (tx : TxUnit) :
    tx.statusWord.extractLsb' 0 1 = BitVec.ofBool tx.state.bit ∧ tx.statusWord.extractLsb' 1 3 = 0 ∧
      tx.statusWord.extractLsb' 4 4 = txErrCode tx.err ∧ tx.statusWord.extractLsb' 8 24 = 0 := by
  refine ⟨?_, ?_, ?_, ?_⟩ <;> rw [TxUnit.statusWord, TxUnit.busy, BitVec.extractLsb'_append_eq_ite] <;>
    simp [BitVec.extractLsb'_append_eq_ite, -Nat.reduceAdd]

/-- CMD_ERR, field by field (R32). -/
theorem CmdErr.word_fields (e : CmdErr) :
    e.word.getLsbD 0 = e.illegal ∧ e.word.extractLsb' 1 3 = 0 ∧ e.word.extractLsb' 4 4 = e.icode ∧
      e.word.extractLsb' 8 2 = ireasonCode e.ireason ∧ e.word.extractLsb' 10 22 = 0 := by
  refine ⟨by rw [CmdErr.word, BitVec.getLsbD_append]; simp, ?_, ?_, ?_, ?_⟩ <;>
    rw [CmdErr.word, BitVec.extractLsb'_append_eq_ite] <;>
    simp [BitVec.extractLsb'_append_eq_ite, -Nat.reduceAdd]

/-! ### The map -/

/-- Settles O35: the fields of each word are those of the lemma about that word, and the code of each name is the
number the spec gives it. -/
theorem registerMapLayout : Obligations.RegisterMapLayout := by
  refine ⟨by decide, fun s => ?_⟩
  obtain ⟨hrole, hcfgZero⟩ := Reg.cfg_fields s
  obtain ⟨hrxState, hhpos, hextIdx, hkeyIdx, hextNeed, hrxZero⟩ := s.rx.statusWord_fields
  obtain ⟨hneedMore, hhdrValid, hdone, herror, hcontrol, hbit19⟩ := s.rx.statusWord_flags
  obtain ⟨hcause, hrxErr⟩ := s.rx.errWord_fields
  obtain ⟨htxState, htxZero, htxErr, htxHigh⟩ := s.tx.statusWord_fields
  obtain ⟨hillegal, hceZero, hicode, hireason, hceHigh⟩ := s.cmdErr.word_fields
  refine ⟨⟨hrole.trans ?_, hcfgZero⟩,
    ⟨hrxState.trans ?_, hneedMore, hhdrValid, hdone, herror, hcontrol, hhpos, hextIdx, hkeyIdx, hbit19, hextNeed,
      hrxZero⟩,
    hdrWord_fields .., ⟨BitVec.extractLsb'_append_extractLsb', BitVec.extractLsb'_append_extractLsb'⟩,
    s.rx.key.pack_fields, ⟨hcause.trans ?_, hrxErr⟩, ⟨htxState.trans ?_, htxZero, htxErr.trans ?_, htxHigh⟩,
    hdrWord_fields .., ⟨BitVec.extractLsb'_append_extractLsb', BitVec.extractLsb'_append_extractLsb'⟩,
    s.tx.key.pack_fields, hillegal, hceZero, hicode, hireason.trans ?_, hceHigh⟩
  · cases s.role <;> rfl
  · cases s.rx.state <;> rfl
  · cases s.rx.errCause with
    | none => rfl
    | some c => cases c <;> rfl
  · cases s.tx.state <;> rfl
  · cases s.tx.err with
    | none => rfl
    | some c => cases c <;> rfl
  · cases s.cmdErr.ireason with
    | none => rfl
    | some g => cases g <;> rfl

end Sys2Proof.Machine
end

section
/-! PROOFS. The RX status flags (spec 10_state.md R27), read from the code of RX_STATE. -/

namespace Sys2Proof.Machine

/-- Two RX states with one code are the same state (R24). -/
theorem RxState.code_inj {a b : RxState} : a.code = b.code ↔ a = b := by
  cases a <;> cases b <;> decide

theorem RxUnit.needMore_iff (rx : RxUnit) : rx.needMore = true ↔ rx.state.code.toNat ≤ 4 :=
  decide_eq_true_iff

theorem RxUnit.isDone_iff (rx : RxUnit) : rx.isDone = true ↔ rx.state.code = 5 :=
  decide_eq_true_iff.trans (RxState.code_inj (b := .done)).symm

theorem RxUnit.isError_iff (rx : RxUnit) : rx.isError = true ↔ rx.state.code = 6 :=
  decide_eq_true_iff.trans (RxState.code_inj (b := .error)).symm

theorem RxUnit.hdrValid_iff (rx : RxUnit) : rx.hdrValid = true ↔ rx.state.code = 4 ∨ rx.state.code = 5 := by
  rw [RxUnit.hdrValid, Bool.or_eq_true, decide_eq_true_iff, decide_eq_true_iff,
    ← RxState.code_inj (b := .payload), ← RxState.code_inj (b := .done)]
  rfl

/-- Every RX state asks for a byte, holds a frame or holds an error, and only one of these (R27). -/
theorem RxUnit.one_of_needMore_isDone_isError (rx : RxUnit) :
    rx.needMore.toNat + rx.isDone.toNat + rx.isError.toNat = 1 := by
  unfold RxUnit.needMore RxUnit.isDone RxUnit.isError
  cases rx.state <;> rfl

/-- Settles O39: one lemma for each flag. -/
theorem rxStatusFlags : Obligations.RxStatusFlags := fun rx =>
  ⟨rx.needMore_iff, rx.hdrValid_iff, rx.isDone_iff, rx.isError_iff, rfl, rx.one_of_needMore_isDone_isError⟩

end Sys2Proof.Machine
end

section
/-! PROOFS. The counter bounds (spec 10_state.md R25, R29), from the invariant. -/

namespace Sys2Proof.Machine

/-! ### The length registers of RX -/

/-- The bounds of the registers that take the length (R25). -/
structure LengthBounded (rx : RxUnit) : Prop where
  extIdx_le : rx.extIdx ≤ rx.extNeed
  extNeed_mem : rx.extNeed.toNat ∈ [0, 2, 8]
  len_le : rx.len.toNat ≤ 2 ^ 63 - 1

theorem NoLength.bounded {rx : RxUnit} (h : NoLength rx) : LengthBounded rx := by
  obtain ⟨hneed, hidx, hlen⟩ := h
  exact ⟨by simp [hneed, hidx], by simp [hneed], by simp [hlen]⟩

theorem LengthFinal.bounded {rx : RxUnit} (h : LengthFinal rx) : LengthBounded rx := by
  obtain ⟨hidx, ⟨hneed, -, hlen⟩ | ⟨hneed, -, -, hlen⟩ | ⟨hneed, -, -, hlen⟩⟩ := h
  · have := rx.len7.isLt
    exact ⟨by simp [hidx], by simp [hneed], by rw [hlen, BitVec.toNat_setWidth]; omega⟩
  · exact ⟨by simp [hidx], by simp [hneed], (BitVec.le_def.mp hlen).trans (by decide)⟩
  · exact ⟨by simp [hidx], by simp [hneed], BitVec.le_def.mp hlen⟩

/-- Fewer bytes have been taken than the form has, and in the 64-bit form the first had bit 7 clear (R147). -/
theorem LengthPartial.bounded {rx : RxUnit} (h : LengthPartial rx) : LengthBounded rx := by
  obtain ⟨hneed, -, hidx, hlen⟩ | ⟨hneed, -, hidx, hlen⟩ := h
  · have hpow : 256 ^ rx.extIdx.toNat ≤ 256 ^ 1 := Nat.pow_le_pow_right (by decide) (by omega)
    exact ⟨by rw [BitVec.le_def, hneed]; exact hidx.le, by simp [hneed], by omega⟩
  · have hpow : 256 ^ rx.extIdx.toNat ≤ 256 ^ 7 := Nat.pow_le_pow_right (by decide) (by omega)
    exact ⟨by rw [BitVec.le_def, hneed]; exact hidx.le, by simp [hneed], by omega⟩

/-! ### The RX unit -/

/-- The bounds of every RX counter (R25). -/
structure RxCountersBounded (rx : RxUnit) : Prop where
  hpos_le : rx.hpos.toNat ≤ 14
  length : LengthBounded rx
  keyIdx_le : rx.keyIdx.toNat ≤ 4
  cnt_le : rx.cnt ≤ rx.len

/-- Before the first key or payload byte only the header position and the length count. -/
theorem NoKeyOrPayload.countersBounded {rx : RxUnit} (h : NoKeyOrPayload rx) (hlen : LengthBounded rx)
    (hpos : rx.hpos.toNat ≤ 14) : RxCountersBounded rx := by
  obtain ⟨hkey, -, hcnt⟩ := h
  exact ⟨hpos, hlen, by simp [hkey], by simp [BitVec.le_def, hcnt]⟩

/-- Two bytes, at most 8 extended-length bytes and at most 4 key bytes make a header of at most 14 (R25, R77). -/
theorem HposCounts.countersBounded {rx : RxUnit} (h : HposCounts rx) (hlen : LengthBounded rx)
    (hkey : rx.keyIdx.toNat ≤ 4) (hcnt : rx.cnt ≤ rx.len) : RxCountersBounded rx := by
  have hidx : rx.extIdx.toNat ≤ rx.extNeed.toNat := hlen.extIdx_le
  have hneed : rx.extNeed.toNat ≤ 8 := by
    have := hlen.extNeed_mem
    simp only [List.mem_cons, List.not_mem_nil, or_false] at this
    omega
  rw [HposCounts] at h
  exact ⟨by omega, hlen, hkey, hcnt⟩

/-- A frame that carries a key has four key bytes, and another has none (R23). -/
theorem KeyFinal.keyIdx_le {rx : RxUnit} (h : KeyFinal rx) : rx.keyIdx.toNat ≤ 4 := by
  rw [h.left]
  split <;> decide

/-- Each cause leaves the length registers and the header position it was raised with in their bounds (R203). -/
theorem ErrorRecorded.bounded {r : Role} {rx : RxUnit} (h : ErrorRecorded r rx) :
    LengthBounded rx ∧ rx.hpos.toNat ≤ 14 := by
  cases hcause : rx.errCause with
  | none => simp only [ErrorRecorded, hcause] at h
  | some c =>
    cases c with simp only [ErrorRecorded, hcause] at h
    | rsvNonzero | opcodeReserved | controlFragmented =>
      obtain ⟨-, hpos, -, -, -, -, hlen⟩ := h
      exact ⟨hlen.bounded, by simp [hpos]⟩
    | unmasked | masked | controlTooLong =>
      obtain ⟨-, hpos, -, -, hlen, -⟩ := h
      exact ⟨hlen.bounded, by simp [hpos]⟩
    | lenNonminimal =>
      obtain ⟨-, hidx, -, ⟨-, hpos, hneed, hlen⟩ | ⟨-, hpos, hneed, hlen⟩⟩ := h
      all_goals
        have hsmall : rx.len.toNat ≤ 2 ^ 63 - 1 := (BitVec.lt_def.mp hlen).le.trans (by decide)
        exact ⟨⟨by simp [hidx], by simp [hneed], hsmall⟩, by simp [hpos]⟩
    | lenMsbSet =>
      obtain ⟨-, -, hpos, hneed, hidx, -, hlen⟩ := h
      have hbyte := rx.errByte.isLt
      have hsmall : rx.len.toNat ≤ 2 ^ 63 - 1 := by
        rw [hlen, BitVec.toNat_setWidth]
        omega
      exact ⟨⟨by simp [hneed, hidx], by simp [hneed], hsmall⟩, by simp [hpos]⟩

/-- The record of an error names a cause. -/
theorem ErrorRecorded.errCause_ne_none {r : Role} {rx : RxUnit} (h : ErrorRecorded r rx) : rx.errCause ≠ none := by
  intro hnone
  rwa [ErrorRecorded, hnone] at h

/-- The bounds of R25 hold in each RX state by what the invariant says of the registers in that state. -/
theorem RxInv.countersBounded {r : Role} {rx : RxUnit} (h : RxInv r rx) : RxCountersBounded rx := by
  cases hs : rx.state with simp only [RxInv, hs] at h
  | hdr0 =>
    subst h
    exact NoKeyOrPayload.countersBounded ⟨rfl, rfl, rfl⟩ (NoLength.bounded ⟨rfl, rfl, rfl⟩) (by decide)
  | hdr1 =>
    obtain ⟨hrx, -⟩ := h
    have hhpos : rx.hpos = 1 := congrArg RxUnit.hpos hrx
    have hnoLength : NoLength rx := by rw [hrx]; exact ⟨rfl, rfl, rfl⟩
    have hnoKey : NoKeyOrPayload rx := by rw [hrx]; exact ⟨rfl, rfl, rfl⟩
    exact hnoKey.countersBounded hnoLength.bounded (by simp [hhpos])
  | extLen =>
    obtain ⟨-, ⟨hkey, -, hcnt⟩, -, hlen, hpos⟩ := h
    exact hpos.countersBounded hlen.bounded (by simp [hkey]) (by simp [BitVec.le_def, hcnt])
  | maskKey =>
    obtain ⟨-, hlen, -, hpos, -, hkey, hcnt⟩ := h
    exact hpos.countersBounded hlen.bounded (BitVec.lt_def.mp hkey).le (by simp [BitVec.le_def, hcnt])
  | payload =>
    obtain ⟨-, hlen, -, hpos, hkey, hcnt⟩ := h
    exact hpos.countersBounded hlen.bounded hkey.keyIdx_le (BitVec.le_of_lt hcnt)
  | done =>
    obtain ⟨-, hlen, -, hpos, hkey, hcnt⟩ := h
    exact hpos.countersBounded hlen.bounded hkey.keyIdx_le (by simp [hcnt])
  | error =>
    obtain ⟨-, hnoKey, herr⟩ := h
    obtain ⟨hlen, hhpos⟩ := herr.bounded
    exact hnoKey.countersBounded hlen hhpos

/-- A cause is recorded exactly in ERROR (R33). -/
theorem RxInv.errCause_ne_none_iff {r : Role} {rx : RxUnit} (h : RxInv r rx) :
    rx.errCause ≠ none ↔ rx.state = .error := by
  cases hs : rx.state with simp only [RxInv, hs] at h
  | hdr0 => simp [h, RxUnit.cleared]
  | hdr1 => simp [show rx.errCause = none from congrArg RxUnit.errCause h.left]
  | extLen | maskKey | payload | done =>
    obtain ⟨-, -, ⟨hcause, -⟩, -⟩ := h
    simp [hcause]
  | error =>
    obtain ⟨-, -, herr⟩ := h
    simp [herr.errCause_ne_none]

/-- Settles O44: the RX bounds state by state, the TX bounds as the invariant has them. -/
theorem counterBounds : Obligations.CounterBounds := by
  intro s hinv
  obtain ⟨hpos, hlength, hkey, hcnt⟩ := hinv.rx.countersBounded
  obtain ⟨-, htxCnt, htxLen, -⟩ := hinv.tx
  exact ⟨hpos, hlength.extIdx_le, hlength.extNeed_mem, hkey, hcnt, hlength.len_le, htxCnt, BitVec.le_def.mp htxLen,
    hinv.rx.errCause_ne_none_iff⟩

end Sys2Proof.Machine
end

section
/-! PROOFS. What the register map reads after a reset (spec 10_state.md R46). -/

namespace Sys2Proof.Machine

/-- CFG reads ROLE as a number: 0 = Client, 1 = Server (R21, R32). -/
theorem Reg.value_cfg (s : State) : Reg.value .cfg s = if s.role = .server then 1 else 0 := by
  rw [Reg.value]
  cases s.role <;> rfl

/-- With RX cleared, RX_STATUS reads NEED_MORE alone, which is computed (R27, R46). -/
theorem Reg.value_rxStatus_of_cleared {s : State} (hrx : s.rx = RxUnit.cleared) :
    Reg.value .rxStatus s = 0x00000008 := by
  rw [Reg.value, hrx]
  rfl

/-- With both units and CMD_ERR cleared, every register but CFG and RX_STATUS reads 0 (R46). -/
theorem Reg.value_of_cleared {s : State} (hrx : s.rx = RxUnit.cleared) (htx : s.tx = TxUnit.cleared)
    (herr : s.cmdErr = CmdErr.cleared) (g : Reg) (hcfg : g ≠ .cfg) (hstatus : g ≠ .rxStatus) : g.value s = 0 := by
  cases g
  case cfg => exact absurd rfl hcfg
  case rxStatus => exact absurd rfl hstatus
  case cmdErr => rw [Reg.value, herr]; rfl
  case rxHdr | rxLenLo | rxLenHi | rxKey | rxCntLo | rxCntHi | rxErr => rw [Reg.value, hrx]; rfl
  case txStatus | txHdr | txLenLo | txLenHi | txKey | txCntLo | txCntHi => rw [Reg.value, htx]; rfl

/-- Settles O10: a reset state's units and CMD_ERR are the cleared ones, so the register map reads as above. -/
theorem powerOnResetValues : Obligations.PowerOnResetValues := fun _ =>
  ⟨rfl, rfl, rfl, rfl, rfl, Reg.value_cfg _, Reg.value_rxStatus_of_cleared rfl, Reg.value_of_cleared rfl rfl rfl⟩

end Sys2Proof.Machine
end

section
/-! PROOFS. Which command words are illegal (spec 30_encoding.md R83, R184; the order is R215's), and that no other
word touches CMD_ERR. -/

/-! ### The fields of a command word as numbers -/

namespace Sys2Proof

/-- CODE is the word modulo 16 (R80). -/
theorem Command.code_toNat (c : Command) : c.code.toNat = c.toNat % 16 := by
  simp [Command.code]

/-- The byte field `C[15:8]` as a number (R82). -/
theorem Command.operandByte_toNat (c : Command) : c.operandByte.toNat = c.toNat / 256 % 256 := by
  simp [Command.operandByte, Nat.shiftRight_eq_div_pow]

/-! ### The reserved bits -/

/-- Bit `i` is reserved for the defined CODE `code`: R82 lists no field there. -/
def ReservedAt (code i : Nat) : Prop :=
  (code ∈ [0, 2, 3, 6] ∧ 4 ≤ i) ∨ (code ∈ [1, 5, 7] ∧ ((4 ≤ i ∧ i < 8) ∨ 16 ≤ i)) ∨
    (code = 4 ∧ 12 ≤ i ∧ i < 32)

/-- The model's mask has exactly the reserved bits (R82). -/
theorem reservedBits_getLsbD {code : BitVec 4} (hcode : code.toNat < 8) {i : Nat} (hi : i < 128) :
    (reservedBits code).getLsbD i = true ↔ ReservedAt code.toNat i := by
  have masks : ∀ (k : Fin 8) (j : Fin 128), (reservedBits (BitVec.ofNat 4 k)).getLsbD j = true ↔ ReservedAt k j := by
    unfold ReservedAt
    decide
  simpa using masks ⟨code.toNat, hcode⟩ ⟨i, hi⟩

/-- A word with a defined CODE passes the mask exactly when no reserved bit is 1. -/
theorem and_reservedBits_eq_zero_iff {c : Command} (hcode : c.toNat % 16 < 8) :
    c &&& reservedBits c.code = 0 ↔ ¬ ∃ i, c.getLsbD i = true ∧ ReservedAt (c.toNat % 16) i := by
  have hmask : ∀ i, i < 128 → ((reservedBits c.code).getLsbD i = true ↔ ReservedAt (c.toNat % 16) i) := by
    intro i hi
    rw [← c.code_toNat] at hcode ⊢
    exact reservedBits_getLsbD hcode hi
  constructor
  · rintro hzero ⟨i, hbit, hres⟩
    have hand : (c &&& reservedBits c.code).getLsbD i = true := by
      rw [BitVec.getLsbD_and, hbit, (hmask i (BitVec.lt_of_getLsbD hbit)).mpr hres, Bool.and_self]
    simp [hzero] at hand
  · intro hnone
    refine BitVec.eq_of_getLsbD_eq fun i hi => ?_
    rw [BitVec.getLsbD_and, show (0 : Command).getLsbD i = false from BitVec.getLsbD_zero, Bool.eq_false_iff,
      ne_eq, Bool.and_eq_true, hmask i hi]
    exact fun h => hnone ⟨i, h⟩

/-! ### What the decoder answers -/

/-- A word with a reserved CODE is RESERVED_CODE (R183). -/
theorem decodeCommand_of_reservedCode {c : Command} (hcode : 8 ≤ c.toNat % 16) :
    decodeCommand c = .ok (.reservedCode c.code c.aboveCode) := by
  rw [← c.code_toNat] at hcode
  obtain ⟨n, hn⟩ := Nat.exists_eq_add_of_le' hcode
  have hle : 8#4 ≤ c.code := BitVec.le_def.mpr hcode
  rw [decodeCommand, if_pos hle, commandOf, hn]
  rfl

/-- With a defined CODE the reserved bits decide (R184). -/
theorem decodeCommand_of_definedCode {c : Command} (hcode : c.toNat % 16 < 8) :
    decodeCommand c =
      if c &&& reservedBits c.code = 0 then .ok (commandOf c) else .error (.reservedBit c.code) := by
  rw [decodeCommand, if_neg]
  rw [BitVec.le_def, c.code_toNat]
  exact Nat.not_le.mpr hcode

/-- A rejected word is rejected wherever RX stands. -/
theorem decodeAt_of_error {c : Command} {e : CommandError} (h : decodeCommand c = .error e) (start : Bool) :
    decodeAt start c = .error e := by
  simp [decodeAt, h]

/-- A word other than an RX_PUSH is what the command decoder reads, wherever RX stands. -/
theorem decodeAt_of_not_rxPush {c : Command} {i : Instr} (h : decodeCommand c = .ok i)
    (hpush : ∀ d, i ≠ .rxPush d) (start : Bool) : decodeAt start c = .ok i := by
  unfold decodeAt
  rw [h]
  cases i with
  | rxPush d => exact absurd rfl (hpush d)
  | _ => rfl

end Sys2Proof

namespace Sys2Proof.Machine

/-! ### The instructions that are no illegal command -/

/-- The unmapped indices are those above CMD_ERR's (R32, R61). -/
theorem Reg.ofIndex_eq_none_iff (idx : Byte) : Reg.ofIndex idx = none ↔ 0x10 < idx.toNat := by
  revert idx
  decide

/-- The instructions that `exec` performs without raising IllegalCommand: all but RESERVED_CODE and an RD_REG of an
unmapped index (R181, R183). -/
def Legal : Instr → Prop
  | .reservedCode _ _ => False
  | .rdReg idx => Reg.ofIndex idx ≠ none
  | _ => True

/-- RX_PUSH keeps CMD_ERR. -/
theorem rxPushByte_keeps_cmdErr (d : Byte) (s : State) : ∃ t, rxPushByte d s = .next t ∧ t.cmdErr = s.cmdErr := by
  obtain ⟨t, ht⟩ := rxPushByte_next d s
  obtain ⟨rx, rfl, -⟩ | ⟨-, rfl⟩ | ⟨-, rfl⟩ := rxPushByte_cases ht
  · exact ⟨_, ht, rfl⟩
  · exact ⟨_, ht, rfl⟩
  · exact ⟨_, ht, rfl⟩

/-- Every instruction that is no illegal command is performed, and CMD_ERR stays as it was (R214). -/
theorem exec_keeps_cmdErr {i : Instr} (hi : Legal i) (s : State) : ∃ t, exec i s = .next t ∧ t.cmdErr = s.cmdErr := by
  cases i with
  | nop | rxReset | txReset => exact ⟨_, rfl, rfl⟩
  | rxAck =>
    rw [exec, execRxAck]
    split <;> exact ⟨_, rfl, rfl⟩
  | txStart fin rsv opcode len key =>
    rw [exec, execTxStart]
    split <;> exact ⟨_, rfl, rfl⟩
  | txPush d =>
    rw [exec, execTxPush]
    split <;> exact ⟨_, rfl, rfl⟩
  | rdReg idx =>
    obtain ⟨g, hg⟩ := Option.ne_none_iff_exists'.mp hi
    rw [exec, execRdReg, hg]
    exact ⟨_, rfl, rfl⟩
  | reservedCode code rest => exact hi.elim
  | _ => exact rxPushByte_keeps_cmdErr _ s

/-! ### Legal words -/

/-- A byte that matches a data opcode's row spells that row's instruction (R156 to R158). -/
theorem eq_of_dataFrame {b : Byte} {f : Bool → Instr} {i : Instr} (h : dataFrame b f = .ok i) : f b.fin = i := by
  unfold dataFrame at h
  split at h <;> cases h
  rfl

/-- A byte that matches a control opcode's row spells that row's instruction (R159 to R161). -/
theorem eq_of_controlFrame {b : Byte} {j i : Instr} (h : controlFrame b j = .ok i) : j = i := by
  unfold controlFrame at h
  split at h
  · cases h
  · split at h <;> cases h
    rfl

/-- No byte 0 of a frame is an illegal command: what is wrong with it is RX's to report (R142). -/
theorem legal_of_decodeByte0 {b : Byte} {i : Instr} (h : decodeByte0 b = .ok i) : Legal i := by
  unfold decodeByte0 at h
  split at h
  case h_1 | h_2 | h_3 => cases eq_of_dataFrame h; trivial
  case h_9 | h_10 | h_11 => cases eq_of_controlFrame h; trivial
  all_goals cases h; trivial

/-- Where the command decoder reads a legal instruction, the block performs a legal one: that instruction, or the
byte 0 that came with an RX_PUSH (R140). -/
theorem decodeAt_legal {c : Command} {i : Instr} (h : decodeCommand c = .ok i) (hi : Legal i) (start : Bool) :
    ∃ j, decodeAt start c = .ok j ∧ Legal j := by
  by_cases hpush : ∃ d, i = .rxPush d
  · obtain ⟨d, rfl⟩ := hpush
    rw [decodeAt, h]
    cases start with
    | false => exact ⟨_, rfl, hi⟩
    | true =>
      cases hbyte : decodeByte0 d with
      | ok j => exact ⟨j, by simp [hbyte], legal_of_decodeByte0 hbyte⟩
      | error e => exact ⟨.rxPush d, by simp [hbyte], hi⟩
  · exact ⟨i, decodeAt_of_not_rxPush h (not_exists.mp hpush) start, hi⟩

/-- CODE 7 is RD_REG (R82). -/
theorem commandOf_of_code_seven {c : Command} (hcode : c.toNat % 16 = 7) : commandOf c = .rdReg c.operandByte := by
  rw [commandOf, c.code_toNat, hcode]
  rfl

/-- A defined CODE spells a legal instruction, but for RD_REG of an unmapped index. -/
theorem legal_commandOf {c : Command} (hcode : c.toNat % 16 < 8)
    (hmapped : ¬ (c.toNat % 16 = 7 ∧ 0x10 < c.toNat / 256 % 256)) : Legal (commandOf c) := by
  unfold commandOf
  split
  case h_8 hseven =>
    rw [c.code_toNat] at hseven
    rw [Legal, ne_eq, Reg.ofIndex_eq_none_iff, c.operandByte_toNat]
    exact fun hidx => hmapped ⟨hseven, hidx⟩
  case h_9 =>
    rw [← c.code_toNat] at hcode
    grind
  all_goals trivial

/-! ### Illegal words -/

/-- IllegalCommand, written out in the state in which the word is presented (R214). -/
theorem raiseIllegal_code_setPort (c : Command) (g : IllegalReason) (s : State) (rest : List HostEvent) :
    raiseIllegal c.code g (s.setPort rest) = .next
      { s with
        port := rest
        cmdErr := if s.cmdErr.illegal = true then s.cmdErr else ⟨true, BitVec.ofNat 4 (c.toNat % 16), some g⟩
        responses := s.responses ++ [⟨false, 0⟩] } := by
  rw [← c.code_toNat, BitVec.ofNat_toNat, BitVec.setWidth_eq]
  rfl

/-- RD_REG of an unmapped index, whose CODE is 7, is illegal (R181). -/
theorem execRdReg_of_unmapped {idx : Byte} (h : 0x10 < idx.toNat) (s : State) :
    execRdReg idx s = raiseIllegal 0x7 .unmappedIndex s := by
  rw [execRdReg, (Reg.ofIndex_eq_none_iff idx).mpr h]

/-- Settles O37: one clause for each answer of the decoder; an unmapped index decodes, and RD_REG itself rejects it. -/
theorem illegalCommandWords : Obligations.IllegalCommandWords := by
  intro c s rest hport
  refine ⟨fun hcode => ?_, fun hcode hres => ?_, fun hcode hres hunmapped => ?_, fun hcode hres hmapped => ?_⟩
  · have hdecode := decodeAt_of_not_rxPush (decodeCommand_of_reservedCode hcode) (by simp) s.atFrameStart
    exact (step_command hport hdecode).trans (raiseIllegal_code_setPort c .reservedCode s rest)
  · have hcommand : decodeCommand c = .error (.reservedBit c.code) := by
      rw [decodeCommand_of_definedCode hcode, if_neg]
      exact fun hzero => (and_reservedBits_eq_zero_iff hcode).mp hzero hres
    exact (step_rejected hport (decodeAt_of_error hcommand _)).trans
      (raiseIllegal_code_setPort c .reservedBit s rest)
  · obtain ⟨hseven, hidx⟩ := hunmapped
    have hcommand : decodeCommand c = .ok (.rdReg c.operandByte) := by
      rw [decodeCommand_of_definedCode hcode, if_pos ((and_reservedBits_eq_zero_iff hcode).mpr hres),
        commandOf_of_code_seven hseven]
    have hcodeSeven : c.code = 0x7 := BitVec.eq_of_toNat_eq (c.code_toNat.trans hseven)
    calc step s = exec (.rdReg c.operandByte) (s.setPort rest) :=
          step_command hport (decodeAt_of_not_rxPush hcommand (by simp) _)
      _ = raiseIllegal 0x7 .unmappedIndex (s.setPort rest) :=
          execRdReg_of_unmapped (c.operandByte_toNat ▸ hidx) _
      _ = raiseIllegal c.code .unmappedIndex (s.setPort rest) := by rw [hcodeSeven]
      _ = _ := raiseIllegal_code_setPort c .unmappedIndex s rest
  · have hcommand : decodeCommand c = .ok (commandOf c) := by
      rw [decodeCommand_of_definedCode hcode, if_pos ((and_reservedBits_eq_zero_iff hcode).mpr hres)]
    obtain ⟨i, hdecode, hi⟩ := decodeAt_legal hcommand (legal_commandOf hcode hmapped) s.atFrameStart
    rw [step_command hport hdecode]
    exact exec_keeps_cmdErr hi (s.setPort rest)

end Sys2Proof.Machine
end

section
/-! PROOFS. Masking is its own inverse (spec 40_masking.md R102). -/

namespace Sys2Proof.Machine

/-- The key byte of a lane cancels itself under XOR (R102). -/
@[simp] theorem mask_mask (b : Byte) (k : MaskKey) (i : Word64) (m : Bool) : mask (mask b k i m) k i m = b := by
  cases m with
  | false => rw [mask_false, mask_false]
  | true => rw [mask_true, mask_true, BitVec.xor_assoc, BitVec.xor_self, BitVec.xor_zero]

/-- Masking keeps every payload byte at its index, so each byte meets the same key byte twice (R102). -/
@[simp] theorem maskBytes_maskBytes (k : MaskKey) (m : Bool) (n : Nat) (p : List Byte) :
    maskBytes k m n (maskBytes k m n p) = p := by
  induction p generalizing n with
  | nil => rfl
  | cons b bs ih => rw [maskBytes_cons, maskBytes_cons, mask_mask, ih (n + 1)]

/-- Settles O40: byte by byte, then over the payload by induction. -/
theorem maskingIsAnInvolution : Obligations.MaskingIsAnInvolution :=
  ⟨mask_mask, maskBytes_maskBytes⟩

end Sys2Proof.Machine
end

section
/-! PROOFS. TX_START, TX_PUSH and TX_RESET (spec 41_encoder.md): the header in plain arithmetic, the checks of
TX_START, and one rule for each way a TX command ends. -/

namespace Sys2Proof.Machine

/-! ### The header in plain arithmetic (R71, R75, R113) -/

/-- `masked<<7 | lengthField` as a number (R71). -/
theorem byte1_eq_ofNat (m : Bool) (l : BitVec 7) : byte1 m l = BitVec.ofNat 8 (m.toNat * 128 + l.toNat) := by
  revert m l
  decide

/-- `BE16` is the two low bytes, most significant first (R11). -/
theorem be16_eq_beBytes (len : Word64) : be16 (len.extractLsb' 0 16) = beBytes 2 len.toNat := by
  simp only [be16, beBytes, List.cons.injEq, and_true]
  constructor <;> apply BitVec.eq_of_toNat_eq <;> simp [Nat.shiftRight_eq_div_pow]

/-- `BE64` is the eight low bytes, most significant first (R11). -/
theorem be64_eq_beBytes (len : Word64) : be64 len = beBytes 8 len.toNat := by
  have hbyte (i : Nat) : len.extractLsb' (8 * i) 8 = BitVec.ofNat 8 (len.toNat / 256 ^ i) := by
    rw [BitVec.extractLsb', Nat.shiftRight_eq_div_pow, Nat.pow_mul]
  simp only [be64, beBytes, List.cons.injEq, and_true]
  exact ⟨hbyte 7, hbyte 6, hbyte 5, hbyte 4, hbyte 3, hbyte 2, hbyte 1, hbyte 0⟩

/-- The length form is chosen by the length's value (R75). -/
theorem lengthField_toNat (len : Word64) : (lengthField len).toNat = minimalLen7 len.toNat := by
  simp only [lengthField, minimalLen7, BitVec.le_def, BitVec.toNat_ofNat, Nat.reducePow, Nat.reduceMod]
  split
  · simp; omega
  · split <;> rfl

theorem lengthField_eq_ofNat (len : Word64) : lengthField len = BitVec.ofNat 7 (minimalLen7 len.toNat) := by
  rw [← lengthField_toNat, BitVec.ofNat_toNat, BitVec.setWidth_eq]

/-- The extended length bytes are those of the length's value (R75). -/
theorem extBytes_eq_minimalExt (len : Word64) : extBytes len = minimalExt len.toNat := by
  simp only [extBytes, minimalExt, BitVec.le_def, BitVec.toNat_ofNat, Nat.reducePow, Nat.reduceMod,
    be16_eq_beBytes, be64_eq_beBytes]

/-- TX masks at a Client (R114). -/
theorem txMasks_eq (r : Role) : txMasks r = decide (r = .client) := rfl

theorem txKey_eq (r : Role) (key : MaskKey) : txKey r key = if r = .client then key else MaskKey.zero := by
  simp [txKey, txMasks_eq]

/-- TX_START's header in plain arithmetic (R113). -/
theorem headerBytes_eq (r : Role) (fin : Bool) (op : BitVec 4) (len : Word64) (key : MaskKey) :
    headerBytes r fin op len key =
      BitVec.ofNat 8 (fin.toNat * 128 + op.toNat)
        :: BitVec.ofNat 8 ((txMasks r).toNat * 128 + minimalLen7 len.toNat)
        :: (minimalExt len.toNat ++ (if txMasks r then keyBytes key else [])) := by
  rw [headerBytes, byte0_eq_ofNat, byte1_eq_ofNat, lengthField_toNat, extBytes_eq_minimalExt]
  rfl

/-- The registers TX_START latches, in plain arithmetic (R113, R114). -/
theorem txStarted_eq (r : Role) (fin : Bool) (op : BitVec 4) (len : Word64) (key : MaskKey) (err : Option TxCause) :
    txStarted r fin op len key err =
      { state := if len = 0 then .idle else .payload
        b0 := BitVec.ofNat 8 (fin.toNat * 128 + op.toNat)
        b1 := BitVec.ofNat 8 ((txMasks r).toNat * 128 + minimalLen7 len.toNat)
        fin := fin, rsv := 0, opcode := op, masked := txMasks r
        len7 := BitVec.ofNat 7 (minimalLen7 len.toNat), len := len, key := txKey r key, cnt := 0, err := err } := by
  rw [txStarted, byte0_eq_ofNat, byte1_eq_ofNat, lengthField_toNat, lengthField_eq_ofNat]
  rfl

/-! ### The checks of TX_START (R112) -/

/-- Bit 63 is clear exactly below 2^63 (R112). -/
theorem getLsbD_63_eq_decide (len : Word64) : len.getLsbD 63 = decide (2 ^ 63 ≤ len.toNat) := by
  rw [← BitVec.msb_eq_getLsbD_last, BitVec.msb_eq_decide]

/-- What TX_START asks for, said once (R112). -/
theorem txStartCheck_eq_none_iff {st : TxState} {fin : Bool} {rsv : BitVec 3} {op : BitVec 4} {len : Word64} :
    txStartCheck st fin rsv op len = none ↔
      st = .idle ∧ rsv = 0 ∧ definedOpcode op = true ∧ (isControl op = true → fin = true ∧ len.toNat ≤ 125) ∧
        len.toNat < 2 ^ 63 := by
  rw [txStartCheck, getLsbD_63_eq_decide]
  cases st with
  | payload => simp
  | idle => grind [BitVec.lt_def]

/-! ### How each TX command ends -/

section
variable {fin : Bool} {rsv : BitVec 3} {op : BitVec 4} {len : Word64} {s : State}

/-- A TX_START that passes its checks (R113). -/
theorem exec_txStart_of_accepted (key : MaskKey) (h : txStartCheck s.tx.state fin rsv op len = none) :
    exec (.txStart fin rsv op len key) s = .next
      (((s.emitTx (headerBytes s.role fin op len key)).setTx
        (txStarted s.role fin op len key s.tx.err)).respond true 0) := by
  rw [exec, execTxStart, h, accept]

/-- A TX_START that fails a check (R112). -/
theorem exec_txStart_of_refused {c : TxCause} (key : MaskKey)
    (h : txStartCheck s.tx.state fin rsv op len = some c) :
    exec (.txStart fin rsv op len key) s = refuseTx c s := by
  rw [exec, execTxStart, h]

/-- TX_PUSH with a frame in progress (R116). -/
theorem exec_txPush_of_payload (d : Byte) (h : s.tx.state = .payload) :
    exec (.txPush d) s = .next
      (((s.emitTx [mask d s.tx.key s.tx.cnt s.tx.masked]).setTx (txPushed s.tx)).respond true 0) := by
  rw [exec, execTxPush, h, accept]

/-- TX_PUSH with no frame in progress (R118). -/
theorem exec_txPush_of_idle (d : Byte) (h : s.tx.state = .idle) : exec (.txPush d) s = refuseTx .noFrame s := by
  rw [exec, execTxPush, h]

end

/-! ### The statements about one command -/

/-- Settles O27: the checks pass, and the header and the latched fields are those of plain arithmetic. -/
theorem txStartAccepted : Obligations.TxStartAccepted := by
  intro fin op len key s hidle hop hcontrol hlen
  have hcheck := txStartCheck_eq_none_iff.mpr
    ⟨hidle, rfl, (definedOpcode_iff op).mpr hop, hcontrol, hlen⟩
  rw [exec_txStart_of_accepted key hcheck, headerBytes_eq, txStarted_eq, txKey_eq, txMasks_eq, keyBytes]
  simp [State.respond, State.setTx, State.emitTx, MaskKey.zero]

/-- Settles O28: in each clause the checks before the failing one pass. -/
theorem txStartRefused : Obligations.TxStartRefused := by
  intro fin rsv op len key s refused defined control
  have refuse {c : TxCause} (h : txStartCheck s.tx.state fin rsv op len = some c) : refused c :=
    exec_txStart_of_refused key h
  have hdefined : defined ↔ definedOpcode op = true := (definedOpcode_iff op).symm
  have hcontrol : control ↔ isControl op = true := Iff.rfl
  rw [hdefined, hcontrol]
  refine ⟨fun hbusy => refuse ?_, fun hidle hrsv => refuse ?_, fun hidle hrsv hop => refuse ?_,
    fun hidle hrsv hop hctl hfin => refuse ?_, fun hidle hrsv hop hctl hfin hlong => refuse ?_,
    fun hidle hrsv hop hctl hlen => refuse ?_⟩
  · simp [txStartCheck, hbusy]
  · rw [txStartCheck, hidle, if_neg TxState.noConfusion, if_pos hrsv]
  · simp [txStartCheck, hidle, hrsv, hop]
  · simp [txStartCheck, hidle, hrsv, hop, hctl, hfin]
  · simp [txStartCheck, hidle, hrsv, hop, hctl, hfin, BitVec.lt_def, hlong]
  · have hbit : len.getLsbD 63 = true := (getLsbD_63_eq_decide len).trans (decide_eq_true hlen)
    rw [txStartCheck, hbit]
    simp [hidle, hrsv, hop, hctl]

/-- Settles O29: one rule for each TX_STATE; the mask is the lane's key byte. -/
theorem txPushEffect : Obligations.TxPushEffect := by
  intro d s lane
  refine ⟨fun hpayload => ?_, fun hidle => exec_txPush_of_idle d hidle⟩
  rw [exec_txPush_of_payload d hpayload, mask, keyLane_index]
  simp only [txPushed, hpayload]
  rfl

/-- Settles O31: TX_RESET is `clearTx`, answered with `accept`. -/
theorem txResetEffect : Obligations.TxResetEffect := fun _ => ⟨rfl, rfl, rfl⟩

end Sys2Proof.Machine
end

section
/-! PROOFS. A frame through the encoder (spec 41_encoder.md R121): TX_PUSH of every payload byte owed, and with
TX_START before them the frame's wire bytes. -/

namespace Sys2Proof.Machine

/-- A 64-bit counter below its bound takes one more byte without wrapping. -/
theorem toNat_succ_of_add_eq {cnt len : Word64} {n : Nat} (h : cnt.toNat + (n + 1) = len.toNat) :
    (cnt + 1#64).toNat = cnt.toNat + 1 := by
  have := len.isLt
  exact BitVec.toNat_add_of_lt (by simp; omega)

/-- A counter that reaches its bound with no byte left stands there. -/
theorem eq_of_toNat_add_length_nil {cnt len : Word64} (h : cnt.toNat + ([] : List Byte).length = len.toNat) :
    cnt = len :=
  BitVec.eq_of_toNat_eq h

/-- With a byte left the counter is below its bound. -/
theorem ne_of_toNat_add_length_cons {cnt len : Word64} {b : Byte} {bs : List Byte}
    (h : cnt.toNat + (b :: bs).length = len.toNat) : cnt ≠ len := by
  rintro rfl
  simp at h

/-- With no payload byte owed the frame is finished (R117). -/
theorem TxUnit.finished_eq_self (tx : TxUnit) (hcnt : tx.cnt = tx.len) (hidle : tx.state = .idle) :
    { tx with cnt := tx.len, state := .idle } = tx := by
  cases tx
  simp_all

/-- TX_PUSH of exactly the bytes a frame still owes: they are emitted masked, each at its own index, and TX is
IDLE after the last (R116, R117). -/
theorem execAll_txPush (bs : List Byte) (s : State)
    (howed : s.tx.state = if s.tx.cnt = s.tx.len then .idle else .payload)
    (hlen : s.tx.cnt.toNat + bs.length = s.tx.len.toNat) :
    execAll (bs.map .txPush) s = .next
      { s with
        tx := { s.tx with cnt := s.tx.len, state := .idle }
        txOut := s.txOut ++ maskBytes s.tx.key s.tx.masked s.tx.cnt.toNat bs
        responses := s.responses ++ List.replicate bs.length ⟨true, 0⟩ } := by
  induction bs generalizing s with
  | nil =>
    have hcnt := eq_of_toNat_add_length_nil hlen
    rw [if_pos hcnt] at howed
    simp [maskBytes, s.tx.finished_eq_self hcnt howed]
  | cons b bs ih =>
    rw [if_neg (ne_of_toNat_add_length_cons hlen)] at howed
    have hsucc := toNat_succ_of_add_eq hlen
    rw [List.map_cons, execAll_cons_of_next (exec_txPush_of_payload b howed), ih]
    · simp [txPushed, hsucc, State.respond, State.setTx, State.emitTx, List.replicate_succ, -BitVec.toNat_add]
    · simp [txPushed, howed]
    · simp only [List.length_cons] at hlen
      simp [txPushed, hsucc, -BitVec.toNat_add]
      omega

/-- A frame's length fits LEN (R9). -/
theorem Frame.Encodable.length_toNat {f : Frame} (hf : f.Encodable) :
    (BitVec.ofNat 64 f.payload.length).toNat = f.payload.length := by
  have := hf.length_bound
  rw [BitVec.toNat_ofNat]
  omega

/-- The wire bytes of a frame that a TX of role `r` sends are TX_START's header, then the masked payload (R121). -/
theorem Frame.wire_sentBy {f : Frame} (hf : f.Encodable) (r : Role) :
    (f.sentBy r).wire =
      headerBytes r f.fin f.opcode (BitVec.ofNat 64 f.payload.length) f.key
        ++ maskBytes (txKey r f.key) (txMasks r) 0 f.payload := by
  have hlen := hf.length_toNat
  have hkey : (if txMasks r then keyBytes (txKey r f.key) else []) = if txMasks r then keyBytes f.key else [] := by
    cases r <;> rfl
  simp [Frame.wire, Frame.sentBy, headerBytes_eq, hlen, hf.rsv_zero, hkey]

/-- A TX in IDLE takes an encodable frame's commands, appends the frame's wire bytes, and holds the frame's
fields in IDLE. -/
theorem execAll_txFrame {f : Frame} {s : State} (hf : f.Encodable) (hidle : s.tx.state = .idle) :
    execAll (txFrame f.fin f.opcode f.key f.payload) s = .next
      { s with
        tx := { txStarted s.role f.fin f.opcode (BitVec.ofNat 64 f.payload.length) f.key s.tx.err with
          cnt := BitVec.ofNat 64 f.payload.length, state := .idle }
        txOut := s.txOut ++ (f.sentBy s.role).wire
        responses := s.responses ++ List.replicate (f.payload.length + 1) ⟨true, 0⟩ } := by
  have hlen := hf.length_toNat
  have hcheck : txStartCheck s.tx.state f.fin 0 f.opcode (BitVec.ofNat 64 f.payload.length) = none :=
    txStartCheck_eq_none_iff.mpr ⟨hidle, rfl, hf.opcode_defined,
      fun hctl => ⟨hf.control_final hctl, hlen.trans_le (hf.control_short hctl)⟩, hlen.trans_lt hf.length_bound⟩
  rw [txFrame, execAll_cons_of_next (exec_txStart_of_accepted f.key hcheck), execAll_txPush]
  · simp [txStarted, Frame.wire_sentBy hf, State.respond, State.setTx, State.emitTx, List.replicate_succ]
  · simp [txStarted, eq_comm]
  · rw [State.respond_tx, State.setTx_tx, txStarted, hlen]
    exact Nat.zero_add _

/-- Settles O51: the state that `execAll_txFrame` writes out. -/
theorem encoderEmitsTheFrame : Obligations.EncoderEmitsTheFrame := fun _ _ hf hidle =>
  ⟨_, execAll_txFrame hf hidle, rfl, rfl, rfl⟩

end Sys2Proof.Machine
end

section
/-! PROOFS. Big-endian numbers (spec 30_encoding.md R54, R76), and the bytes that RX takes one after the other
(42_decoder.md R140). -/

namespace Sys2Proof.Machine

/-! ### Big-endian numbers (R54, R76) -/

/-- What is accumulated before some bytes weighs 256 for each of them. -/
theorem foldl_beValue (n : Nat) (bs : List Byte) :
    bs.foldl (fun n b => n * 256 + b.toNat) n = n * 256 ^ bs.length + beValue bs := by
  unfold beValue
  induction bs generalizing n with
  | nil => simp
  | cons b bs ih =>
    rw [List.foldl_cons, List.foldl_cons, ih, ih (0 * 256 + b.toNat), List.length_cons]
    ring

/-- The first byte is the most significant. -/
theorem beValue_cons (b : Byte) (bs : List Byte) : beValue (b :: bs) = b.toNat * 256 ^ bs.length + beValue bs := by
  rw [beValue, List.foldl_cons, foldl_beValue, Nat.zero_mul, Nat.zero_add]

theorem beValue_lt (bs : List Byte) : beValue bs < 256 ^ bs.length := by
  induction bs with
  | nil => simp [beValue]
  | cons b bs ih =>
    have hb : b.toNat + 1 ≤ 256 := b.isLt
    have := Nat.mul_le_mul_right (256 ^ bs.length) hb
    rw [beValue_cons, List.length_cons, Nat.pow_succ']
    linarith

/-- The `k` low bytes of a number spell it modulo `256 ^ k`. -/
theorem beValue_beBytes (k n : Nat) : beValue (beBytes k n) = n % 256 ^ k := by
  induction k with
  | zero => simp [beBytes, beValue, Nat.mod_one]
  | succ k ih =>
    rw [beBytes, beValue_cons, ih, length_beBytes, BitVec.toNat_ofNat, Nat.mod_pow_succ (b := 256), Nat.add_comm,
      Nat.mul_comm]

/-! ### Bytes that RX takes -/

/-- The state after RX has taken `n` bytes: its registers, the payload bytes emitted on the way, and `n` accepting
responses. -/
def State.took (s : State) (rx : RxUnit) (n : Nat) (out : List Byte) : State :=
  { s with rx := rx, rxOut := s.rxOut ++ out, responses := s.responses ++ List.replicate n ⟨true, 0⟩ }

/-- RX in a block of role `r` takes every byte of `bs`, which leads its registers from `rx` to `rx'` and emits the
payload bytes `out`. -/
def RxTakes (r : Role) (rx : RxUnit) (bs : List Byte) (rx' : RxUnit) (out : List Byte) : Prop :=
  ∀ s : State, s.role = r → s.rx = rx → execAll (rxFeed bs) s = .next (s.took rx' bs.length out)

section
variable {r : Role} {rx : RxUnit}

theorem RxTakes.nil : RxTakes r rx [] rx [] := by
  rintro s - rfl
  simp [rxFeed, State.took]

/-- Bytes after other bytes are taken from where the first ones led (R62). -/
theorem RxTakes.append {rx₁ rx₂ : RxUnit} {xs ys out₁ out₂ : List Byte} (h₁ : RxTakes r rx xs rx₁ out₁)
    (h₂ : RxTakes r rx₁ ys rx₂ out₂) : RxTakes r rx (xs ++ ys) rx₂ (out₁ ++ out₂) := by
  intro s hr hrx
  rw [rxFeed_append, execAll_append_of_next (h₁ s hr hrx), h₂ (s.took rx₁ xs.length out₁) hr rfl]
  simp [State.took]

/-- One byte, then the rest. -/
theorem RxTakes.cons {d : Byte} {rx₁ rx₂ : RxUnit} {ds out₁ out₂ : List Byte} (h₁ : RxTakes r rx [d] rx₁ out₁)
    (h₂ : RxTakes r rx₁ ds rx₂ out₂) : RxTakes r rx (d :: ds) rx₂ (out₁ ++ out₂) :=
  h₁.append h₂

/-- One byte in a header state (R140). -/
theorem RxTakes.of_header {d : Byte} {rx₁ : RxUnit}
    (h : ∀ s : State, s.role = r → s.rx = rx → rxPushByte d s = accept (s.setRx rx₁)) : RxTakes r rx [d] rx₁ [] := by
  intro s hr hrx
  have hpush : exec (.rxPush d) s = .next ((s.setRx rx₁).respond true 0) := h s hr hrx
  rw [rxFeed_cons, execAll_cons_of_next hpush]
  simp [rxFeed, State.took, State.respond, State.setRx]

theorem RxTakes.hdr0 (d : Byte) (h : rx.state = .hdr0) : RxTakes r rx [d] (rxHdr0 d rx) [] :=
  .of_header fun s _ hrx => by rw [rxPushByte, hrx, h]

theorem RxTakes.hdr1 (d : Byte) (h : rx.state = .hdr1) : RxTakes r rx [d] (rxHdr1 r d rx) [] :=
  .of_header fun s hr hrx => by rw [rxPushByte, hrx, h, hr]

theorem RxTakes.extLen (d : Byte) (h : rx.state = .extLen) : RxTakes r rx [d] (rxExtLen d rx) [] :=
  .of_header fun s _ hrx => by rw [rxPushByte, hrx, h]

theorem RxTakes.maskKey (d : Byte) (h : rx.state = .maskKey) : RxTakes r rx [d] (rxMaskKey d rx) [] :=
  .of_header fun s _ hrx => by rw [rxPushByte, hrx, h]

/-- One byte in PAYLOAD (R151). -/
theorem RxTakes.payload (d : Byte) (h : rx.state = .payload) :
    RxTakes r rx [d] (rxPayload rx) [mask d rx.key rx.cnt rx.masked] := by
  rintro s - rfl
  have hpush : exec (.rxPush d) s =
      .next (((s.emitRx (mask d s.rx.key s.rx.cnt s.rx.masked)).setRx (rxPayload s.rx)).respond true 0) := by
    simp [exec, execRxPush, rxPushByte, h, accept]
  rw [rxFeed_cons, execAll_cons_of_next hpush]
  rfl

end

/-- In DONE and in ERROR no byte is taken (R152, R153). -/
theorem execAll_rxFeed_of_done_or_error (bs : List Byte) (s : State)
    (h : s.rx.state = .done ∨ s.rx.state = .error) :
    execAll (rxFeed bs) s = .next { s with responses := s.responses ++ List.replicate bs.length ⟨false, 0⟩ } := by
  induction bs generalizing s with
  | nil => simp [rxFeed]
  | cons b bs ih =>
    have hpush : exec (.rxPush b) s = .next (s.respond false 0) := by
      rw [exec, execRxPush, rxPushByte]
      obtain h | h := h <;> rw [h, reject]
    rw [rxFeed_cons, execAll_cons_of_next hpush, ih (s.respond false 0) h]
    simp [State.respond, List.replicate_succ]

end Sys2Proof.Machine
end

section
/-! PROOFS. A valid frame through the decoder (spec 42_decoder.md): what RX makes of each part of a frame, and what
its registers hold at the end. -/

namespace Sys2Proof.Machine

/-! ### Payload bytes and key bytes -/

section
variable {r : Role} {rx : RxUnit}

/-- With no payload byte left the frame is finished (R151). -/
theorem RxUnit.finished_eq_self (rx : RxUnit) (hcnt : rx.cnt = rx.len) (hdone : rx.state = .done) :
    { rx with cnt := rx.len, state := .done } = rx := by
  cases rx
  simp_all

/-- The payload bytes still to come are emitted unmasked, each at its own index, and RX is DONE after the last
(R151). -/
theorem RxTakes.payload_rest (bs : List Byte) (hstate : rx.state = if rx.cnt = rx.len then .done else .payload)
    (hlen : rx.cnt.toNat + bs.length = rx.len.toNat) :
    RxTakes r rx bs { rx with cnt := rx.len, state := .done } (maskBytes rx.key rx.masked rx.cnt.toNat bs) := by
  induction bs generalizing rx with
  | nil =>
    have hcnt := eq_of_toNat_add_length_nil hlen
    rw [if_pos hcnt] at hstate
    rw [rx.finished_eq_self hcnt hstate]
    exact .nil
  | cons b bs ih =>
    rw [if_neg (ne_of_toNat_add_length_cons hlen)] at hstate
    have hsucc := toNat_succ_of_add_eq hlen
    have hrest : RxTakes r (rxPayload rx) bs { rx with cnt := rx.len, state := .done }
        (maskBytes rx.key rx.masked (rx.cnt.toNat + 1) bs) := by
      rw [← hsucc]
      refine ih ?_ ?_
      · simp [rxPayload, hstate]
      · simp only [List.length_cons] at hlen
        simp [rxPayload, hsucc, -BitVec.toNat_add]
        omega
    simpa using (RxTakes.payload b hstate).cons hrest

/-- Four key bytes are the key, and the payload follows (R150). -/
theorem RxTakes.key (a b c d : Byte) (hstate : rx.state = .maskKey) (hidx : rx.keyIdx = 0) :
    RxTakes r rx [a, b, c, d]
      { rx with
        key := ⟨a, b, c, d⟩, keyIdx := 4, hpos := rx.hpos + 4
        state := if rx.len = 0 then .done else .payload } [] := by
  have hb : (rxMaskKey a rx).state = .maskKey := by simp [rxMaskKey, hidx, hstate]
  have hc : (rxMaskKey b (rxMaskKey a rx)).state = .maskKey := by simp [rxMaskKey, hidx, hstate]
  have hd : (rxMaskKey c (rxMaskKey b (rxMaskKey a rx))).state = .maskKey := by simp [rxMaskKey, hidx, hstate]
  have h := (RxTakes.maskKey (r := r) a hstate).cons ((RxTakes.maskKey b hb).cons
    ((RxTakes.maskKey c hc).cons (RxTakes.maskKey d hd)))
  simpa [rxMaskKey, hidx, setKeyByte, add_assoc] using h

/-! ### Extended-length bytes -/

/-- The registers after one more extended-length byte, before the checks (R146). -/
def RxUnit.accumulated (rx : RxUnit) (d : Byte) : RxUnit :=
  { rx with len := rx.len <<< 8 ||| d.setWidth 64, extIdx := rx.extIdx + 1, hpos := rx.hpos + 1 }

/-- As long as the length stays below 2^63 no bit of it is lost (R146). -/
theorem RxUnit.accumulated_len_toNat {d : Byte} (h : rx.len.toNat * 256 + d.toNat < 2 ^ 63) :
    (rx.accumulated d).len.toNat = rx.len.toNat * 256 + d.toNat :=
  accumulate_toNat _ _ (by omega)

/-- An extended-length byte that is not the last (R146). -/
theorem rxExtLen_of_more {d : Byte} (hmsb : lenMsbCheck rx.extNeed (rx.extIdx + 1) d = false)
    (hmore : rx.extIdx + 1 ≠ rx.extNeed) : rxExtLen d rx = rx.accumulated d :=
  (if_neg (Bool.eq_false_iff.mp hmsb)).trans (if_neg hmore)

/-- The last extended-length byte of a length in its minimal form (R148, R149). -/
theorem rxExtLen_of_last {d : Byte} (hmsb : lenMsbCheck rx.extNeed (rx.extIdx + 1) d = false)
    (hlast : rx.extIdx + 1 = rx.extNeed) (hmin : lenNonminimalCheck rx.extNeed (rx.accumulated d).len = false) :
    rxExtLen d rx = { rx.accumulated d with state := afterLen rx.masked (rx.accumulated d).len } :=
  (if_neg (Bool.eq_false_iff.mp hmsb)).trans ((if_pos hlast).trans (if_neg (Bool.eq_false_iff.mp hmin)))

/-- The first byte of a 64-bit length below 2^63 has bit 7 clear (R147). -/
theorem lenMsbCheck_eq_false {d : Byte} {ds : List Byte}
    (hidx : rx.extIdx.toNat + (d :: ds).length = rx.extNeed.toNat)
    (hbound : rx.len.toNat * 256 ^ (d :: ds).length + beValue (d :: ds) < 2 ^ 63) :
    lenMsbCheck rx.extNeed (rx.extIdx + 1) d = false := by
  by_contra h
  obtain ⟨hneed, hfirst, hbit⟩ : rx.extNeed = 8#4 ∧ rx.extIdx = 0#4 ∧ d.getLsbD 7 = true := by
    simpa [lenMsbCheck] using h
  have hseven : ds.length = 7 := by simpa [hneed, hfirst] using hidx
  have hhigh : 128 ≤ d.toNat := by
    rw [← BitVec.msb_eq_getLsbD_last, BitVec.msb_eq_decide] at hbit
    simpa using hbit
  rw [beValue_cons, hseven] at hbound
  omega

/-- The bytes of the length still to come, when they spell a length below 2^63 in its minimal form (R146 to R149). -/
theorem RxTakes.ext_rest (bs : List Byte) (hne : bs ≠ []) (hstate : rx.state = .extLen)
    (hidx : rx.extIdx.toNat + bs.length = rx.extNeed.toNat) {v : Nat}
    (hv : v = rx.len.toNat * 256 ^ bs.length + beValue bs) (hbound : v < 2 ^ 63)
    (hmin : lenNonminimalCheck rx.extNeed (BitVec.ofNat 64 v) = false) :
    RxTakes r rx bs
      { rx with
        len := BitVec.ofNat 64 v, extIdx := rx.extNeed, hpos := rx.hpos + BitVec.ofNat 4 bs.length
        state := afterLen rx.masked (BitVec.ofNat 64 v) } [] := by
  induction bs generalizing rx with
  | nil => exact absurd rfl hne
  | cons d ds ih =>
    have hpush := RxTakes.extLen (r := r) d hstate
    have hmsb := lenMsbCheck_eq_false hidx (hv ▸ hbound)
    have hvalue : v = (rx.len.toNat * 256 + d.toNat) * 256 ^ ds.length + beValue ds := by
      rw [hv, beValue_cons, List.length_cons]
      ring
    have hlen : (rx.accumulated d).len.toNat = rx.len.toNat * 256 + d.toNat := by
      have := Nat.le_mul_of_pos_right (rx.len.toNat * 256 + d.toNat) (show 0 < 256 ^ ds.length by positivity)
      exact RxUnit.accumulated_len_toNat (by omega)
    have hsucc : (rx.extIdx + 1).toNat = rx.extIdx.toNat + 1 := by
      have := rx.extNeed.isLt
      rw [List.length_cons] at hidx
      exact BitVec.toNat_add_of_lt (by simp; omega)
    cases ds with
    | nil =>
      have hlast : rx.extIdx + 1#4 = rx.extNeed := BitVec.eq_of_toNat_eq (hsucc.trans hidx)
      have hfinal : (rx.accumulated d).len = BitVec.ofNat 64 v := by
        rw [← BitVec.setWidth_eq (rx.accumulated d).len, ← BitVec.ofNat_toNat, hlen, hvalue]
        simp [beValue]
      rw [rxExtLen_of_last hmsb hlast (hfinal ▸ hmin), hfinal] at hpush
      rw [RxUnit.accumulated] at hfinal
      simpa [RxUnit.accumulated, hlast, hfinal] using hpush
    | cons e es =>
      have hmore : rx.extIdx + 1 ≠ rx.extNeed := by
        intro hlast
        rw [← hlast, hsucc] at hidx
        simp at hidx
      rw [rxExtLen_of_more hmsb hmore] at hpush
      have hidx' : (rx.extIdx + 1).toNat + (e :: es).length = rx.extNeed.toNat := by
        rw [hsucc, Nat.add_assoc, Nat.add_comm 1]
        exact hidx
      have hpos : rx.hpos + BitVec.ofNat 4 (d :: e :: es).length = rx.hpos + 1 + BitVec.ofNat 4 (e :: es).length := by
        rw [List.length_cons, Nat.add_comm, BitVec.ofNat_add, BitVec.add_assoc]
        rfl
      rw [hpos]
      exact hpush.cons (ih (List.cons_ne_nil e es) hstate hidx' (by rw [hlen]; exact hvalue) hmin)

end

/-! ### The registers on the way through a frame -/

/-- The registers once byte 0 is taken (R141). -/
def RxUnit.byte0Read (b0 : Byte) : RxUnit :=
  { RxUnit.cleared with state := .hdr1, hpos := 1, b0 := b0, fin := b0.fin, rsv := b0.rsv, opcode := b0.opcode }

/-- The registers with byte 1 captured (R143). -/
def RxUnit.byte1Read (b0 b1 : Byte) : RxUnit :=
  { RxUnit.byte0Read b0 with hpos := 2, b1 := b1, masked := maskedOf b1, len7 := len7Of b1 }

/-- The registers that await the bytes of an extended length (R145). -/
def RxUnit.lengthAwaited (b0 b1 : Byte) : RxUnit :=
  { RxUnit.byte1Read b0 b1 with extNeed := BitVec.ofNat 4 (extWidth b1), state := .extLen }

/-- The registers once the length is known (R145, R149). -/
def RxUnit.lengthRead (b0 b1 : Byte) (ext : List Byte) : RxUnit :=
  { RxUnit.byte1Read b0 b1 with
    hpos := 2 + BitVec.ofNat 4 ext.length
    extNeed := BitVec.ofNat 4 ext.length
    extIdx := BitVec.ofNat 4 ext.length
    len := BitVec.ofNat 64 (declaredLen b1 ext)
    state := afterLen (maskedOf b1) (BitVec.ofNat 64 (declaredLen b1 ext)) }

/-- The registers once the header is complete (R150). -/
def RxUnit.headerRead (b0 b1 : Byte) (ext key : List Byte) : RxUnit :=
  { RxUnit.lengthRead b0 b1 ext with
    hpos := 2 + BitVec.ofNat 4 ext.length + BitVec.ofNat 4 key.length
    key := keyOfBytes key
    keyIdx := BitVec.ofNat 3 key.length
    state := if BitVec.ofNat 64 (declaredLen b1 ext) = 0 then .done else .payload }

/-- The registers once the frame is complete (R151). -/
def RxUnit.frameRead (b0 b1 : Byte) (ext key : List Byte) : RxUnit :=
  { RxUnit.headerRead b0 b1 ext key with cnt := BitVec.ofNat 64 (declaredLen b1 ext), state := .done }

section
variable {r : Role} {b0 b1 : Byte} {ext key payload : List Byte}

/-! ### A valid frame passes every check (R89) -/

/-- What byte 0 is asked for (R142). -/
theorem byte0Check_eq_none_iff {d : Byte} :
    byte0Check d = none ↔ d.rsv = 0 ∧ definedOpcode d.opcode = true ∧ (isControl d.opcode = true → d.fin = true) := by
  grind [byte0Check]

/-- What byte 1 is asked for (R144). -/
theorem byte1Check_eq_none_iff {op : BitVec 4} {d : Byte} :
    byte1Check r op d = none ↔
      (maskedOf d = true ↔ r = .server) ∧ (isControl op = true → (len7Of d).toNat ≤ 125) := by
  cases r <;> grind [byte1Check, rxDemandsMask, BitVec.lt_def]

/-- The declared length is below 2^63 (R89, R147). -/
theorem ValidFrame.declaredLen_lt (h : ValidFrame r b0 b1 ext key payload) : declaredLen b1 ext < 2 ^ 63 := by
  have hvalue := beValue_lt ext
  have hwidth := h.ext_width
  have hmsb := h.ext_msb
  unfold declaredLen
  grind [extWidth]

/-- The length of a valid frame is in its minimal form (R89, R148). -/
theorem ValidFrame.lenNonminimalCheck_eq_false (h : ValidFrame r b0 b1 ext key payload)
    (hlong : 125 < (len7Of b1).toNat) :
    lenNonminimalCheck (BitVec.ofNat 4 (extWidth b1)) (BitVec.ofNat 64 (declaredLen b1 ext)) = false := by
  have hlt := h.declaredLen_lt
  have hvalue : declaredLen b1 ext = beValue ext := if_neg (Nat.not_le.mpr hlong)
  obtain ⟨htwo, height⟩ := h.ext_minimal
  rw [← hvalue] at htwo height
  grind [lenNonminimalCheck, extWidth, BitVec.lt_def]

/-! ### A valid frame, part by part -/

/-- A byte 0 that passes its checks (R142). -/
theorem RxTakes.first_byte (h : byte0Check b0 = none) : RxTakes r .cleared [b0] (.byte0Read b0) [] := by
  have hread : rxHdr0 b0 .cleared = .byte0Read b0 := by
    rw [rxHdr0, h]
    rfl
  exact hread ▸ .hdr0 b0 rfl

/-- A byte 1 that passes its checks (R145). -/
theorem RxTakes.second_byte (h : byte1Check r b0.opcode b1 = none) :
    RxTakes r (.byte0Read b0) [b1] (afterByte1 (.byte1Read b0 b1)) [] := by
  have hread : rxHdr1 r b1 (.byte0Read b0) = afterByte1 (.byte1Read b0 b1) := by
    rw [rxHdr1, RxUnit.byte0Read, h]
    rfl
  exact hread ▸ .hdr1 b1 rfl

/-- A byte 1 that fails a check is taken too, and raises its cause at position 1 (R144, R205). -/
theorem RxTakes.bad_second_byte {c : ProtocolCause} (h : byte1Check r b0.opcode b1 = some c) :
    RxTakes r (.byte0Read b0) [b1] ((RxUnit.byte1Read b0 b1).raise c 1 b1) [] := by
  have hread : rxHdr1 r b1 (.byte0Read b0) = (RxUnit.byte1Read b0 b1).raise c 1 b1 := by
    rw [rxHdr1, RxUnit.byte0Read, h]
    rfl
  exact hread ▸ .hdr1 b1 rfl

/-- The length field chooses the form: it is the length, or names how many bytes carry it (R71, R145). -/
theorem afterByte1_byte1Read (b0 b1 : Byte) :
    afterByte1 (.byte1Read b0 b1) =
      if (len7Of b1).toNat ≤ 125 then .lengthRead b0 b1 []
      else .lengthAwaited b0 b1 := by
  by_cases hshort : (len7Of b1).toNat ≤ 125
  · have hlen : (len7Of b1).setWidth 64 = BitVec.ofNat 64 (declaredLen b1 []) := by
      rw [declaredLen, if_pos hshort, BitVec.ofNat_toNat]
    rw [if_pos hshort, RxUnit.lengthRead, ← hlen, afterByte1, if_pos (BitVec.le_def.mpr hshort)]
    rfl
  · have h7 : (len7Of b1).toNat < 2 ^ 7 := (len7Of b1).isLt
    have hneed : (if len7Of b1 = 126 then 2 else 8) = BitVec.ofNat 4 (extWidth b1) := by
      have h126 : len7Of b1 = 126 ↔ (len7Of b1).toNat = 126 := BitVec.toNat_inj.symm
      grind [extWidth]
    rw [if_neg hshort, afterByte1, if_neg (mt BitVec.le_def.mp hshort), RxUnit.lengthAwaited, ← hneed]
    rfl

/-- The length bytes of a valid frame (R145 to R149). -/
theorem RxTakes.length_bytes (h : ValidFrame r b0 b1 ext key payload) :
    RxTakes r (afterByte1 (.byte1Read b0 b1)) ext (.lengthRead b0 b1 ext) [] := by
  have hwidth := h.ext_width
  rw [afterByte1_byte1Read]
  by_cases hshort : (len7Of b1).toNat ≤ 125
  · obtain rfl : ext = [] := by
      rw [← List.length_eq_zero_iff, hwidth]
      grind [extWidth]
    rw [if_pos hshort]
    exact .nil
  · have h7 : (len7Of b1).toNat < 2 ^ 7 := (len7Of b1).isLt
    have hlong : extWidth b1 = 2 ∨ extWidth b1 = 8 := by grind [extWidth]
    have hidx : 0 + ext.length = (BitVec.ofNat 4 (extWidth b1)).toNat := by
      rw [Nat.zero_add, hwidth]
      obtain hw | hw := hlong <;> rw [hw] <;> rfl
    have hvalue : declaredLen b1 ext = 0 * 256 ^ ext.length + beValue ext := by
      rw [declaredLen, if_neg hshort, Nat.zero_mul, Nat.zero_add]
    have hread := RxTakes.ext_rest (r := r) (rx := .lengthAwaited b0 b1) ext (by grind) rfl hidx hvalue
      h.declaredLen_lt (h.lenNonminimalCheck_eq_false (Nat.lt_of_not_le hshort))
    rw [if_neg hshort, RxUnit.lengthRead, hwidth]
    rwa [hwidth] at hread

/-- The key bytes of a valid frame (R145, R149, R150). -/
theorem RxTakes.key_bytes (h : ValidFrame r b0 b1 ext key payload) :
    RxTakes r (.lengthRead b0 b1 ext) key (.headerRead b0 b1 ext key) [] := by
  have hkey := h.key_width
  cases hmasked : maskedOf b1 with
  | false =>
    obtain rfl : key = [] := by simpa [hmasked] using hkey
    have hsame : RxUnit.lengthRead b0 b1 ext = .headerRead b0 b1 ext [] := by
      rw [RxUnit.headerRead, RxUnit.lengthRead, hmasked, List.length_nil, BitVec.add_zero]
      rfl
    exact hsame ▸ .nil
  | true =>
    obtain ⟨a, b, c, d, rfl⟩ : ∃ a b c d, key = [a, b, c, d] := by
      rw [← List.length_eq_four]
      simpa [hmasked] using hkey
    exact .key a b c d (by simp [RxUnit.lengthRead, hmasked, afterLen]) rfl

/-- The payload bytes of a valid frame (R151). -/
theorem RxTakes.payload_bytes (h : ValidFrame r b0 b1 ext key payload) :
    RxTakes r (.headerRead b0 b1 ext key) payload (.frameRead b0 b1 ext key)
      (maskBytes (keyOfBytes key) (maskedOf b1) 0 payload) := by
  have hstate : (RxUnit.headerRead b0 b1 ext key).state =
      if (0 : Word64) = BitVec.ofNat 64 (declaredLen b1 ext) then .done else .payload := by
    simp only [RxUnit.headerRead, eq_comm]
  have hlen : 0 + payload.length = (BitVec.ofNat 64 (declaredLen b1 ext)).toNat := by
    have := h.declaredLen_lt
    rw [h.payload_length, BitVec.toNat_ofNat]
    omega
  exact RxTakes.payload_rest (rx := .headerRead b0 b1 ext key) payload hstate hlen

/-- From a frame's start RX takes a valid frame to DONE and emits its payload unmasked (R163). -/
theorem RxTakes.validFrame (h : ValidFrame r b0 b1 ext key payload) :
    RxTakes r .cleared (frameBytes b0 b1 ext key payload) (.frameRead b0 b1 ext key)
      (maskBytes (keyOfBytes key) (maskedOf b1) 0 payload) := by
  have hb0 := RxTakes.first_byte (r := r) (byte0Check_eq_none_iff.mpr ⟨h.rsv_zero, h.opcode_defined, h.control_final⟩)
  have hb1 := RxTakes.second_byte (b0 := b0) (byte1Check_eq_none_iff.mpr ⟨h.mask_by_role, h.control_short⟩)
  exact hb0.cons (hb1.cons (((RxTakes.length_bytes h).append (.key_bytes h)).append (.payload_bytes h)))

end
end Sys2Proof.Machine
end

section
/-! PROOFS. What a TX emits, an RX of the opposite role decodes and an RX of the same role rejects (spec
41_encoder.md R122). -/

namespace Sys2Proof.Machine

/-! ### The wire bytes of a frame are a valid frame (R89, R121) -/

@[simp] theorem maskedOf_byte1 (m : Bool) (l : BitVec 7) : maskedOf (byte1 m l) = m := by
  revert m l
  decide

@[simp] theorem len7Of_byte1 (m : Bool) (l : BitVec 7) : len7Of (byte1 m l) = l := by
  revert m l
  decide

/-- Byte 1 of a frame's wire bytes. -/
def Frame.wireByte1 (f : Frame) : Byte := byte1 f.masked (BitVec.ofNat 7 (minimalLen7 f.payload.length))

/-- The key bytes among a frame's wire bytes. -/
def Frame.wireKey (f : Frame) : List Byte := if f.masked then keyBytes f.key else []

/-- The length field takes 7 bits (R71). -/
theorem minimalLen7_lt (n : Nat) : minimalLen7 n < 2 ^ 7 := by
  grind [minimalLen7]

theorem Frame.len7Of_wireByte1 (f : Frame) : (len7Of f.wireByte1).toNat = minimalLen7 f.payload.length := by
  rw [Frame.wireByte1, len7Of_byte1, BitVec.toNat_ofNat, Nat.mod_eq_of_lt (minimalLen7_lt _)]

theorem Frame.maskedOf_wireByte1 (f : Frame) : maskedOf f.wireByte1 = f.masked :=
  maskedOf_byte1 ..

theorem Frame.wire_eq_frameBytes (f : Frame) :
    f.wire = frameBytes (byte0 f.fin f.rsv f.opcode) f.wireByte1 (minimalExt f.payload.length) f.wireKey
      (maskBytes f.key f.masked 0 f.payload) := by
  rw [Frame.wire, frameBytes, byte0_eq_ofNat, Frame.wireByte1, byte1_eq_ofNat, BitVec.toNat_ofNat,
    Nat.mod_eq_of_lt (minimalLen7_lt _), Frame.wireKey]

/-- The extended length bytes spell the length (R75, R76). -/
theorem beValue_minimalExt {n : Nat} (hlong : 125 < n) (hn : n < 2 ^ 63) : beValue (minimalExt n) = n := by
  rw [minimalExt, if_neg (Nat.not_le.mpr hlong)]
  split
  · rw [beValue_beBytes, Nat.mod_eq_of_lt (by omega)]
  · rw [beValue_beBytes, Nat.mod_eq_of_lt (by omega)]

/-- How many extended-length bytes byte 1 announces: those of the minimal form (R71, R75). -/
theorem Frame.extWidth_wireByte1 (f : Frame) : extWidth f.wireByte1 = (minimalExt f.payload.length).length := by
  rw [extWidth, f.len7Of_wireByte1]
  grind [minimalExt, minimalLen7, length_beBytes]

/-- Extended-length bytes are there for a length above 125 alone, and eight of them above 65535 (R75). -/
theorem length_minimalExt (n : Nat) :
    (minimalExt n).length = if n ≤ 125 then 0 else if n ≤ 65535 then 2 else 8 := by
  grind [minimalExt, length_beBytes]

/-- The length that a frame's wire bytes declare is its payload's (R76). -/
theorem Frame.Encodable.declaredLen_eq {f : Frame} (hf : f.Encodable) :
    declaredLen f.wireByte1 (minimalExt f.payload.length) = f.payload.length := by
  have hext := beValue_minimalExt (n := f.payload.length) (hn := hf.length_bound)
  rw [declaredLen, f.len7Of_wireByte1]
  grind [minimalLen7]

/-- An encodable frame is valid to a receiver that demands its mask bit (R89). -/
theorem Frame.Encodable.validFrame {f : Frame} (hf : f.Encodable) {r : Role} (hmask : f.masked = true ↔ r = .server) :
    ValidFrame r (byte0 f.fin f.rsv f.opcode) f.wireByte1 (minimalExt f.payload.length) f.wireKey
      (maskBytes f.key f.masked 0 f.payload) where
  rsv_zero := by simpa using hf.rsv_zero
  opcode_defined := by simpa using hf.opcode_defined
  control_final := by simpa using hf.control_final
  mask_by_role := by rwa [f.maskedOf_wireByte1]
  control_short hctl := by
    rw [byte0_opcode] at hctl
    have := hf.control_short hctl
    rw [f.len7Of_wireByte1]
    grind [minimalLen7]
  ext_width := f.extWidth_wireByte1.symm
  ext_minimal := by
    have hext := beValue_minimalExt (n := f.payload.length) (hn := hf.length_bound)
    rw [f.extWidth_wireByte1, length_minimalExt]
    grind
  ext_msb := by
    have hext := beValue_minimalExt (n := f.payload.length) (hn := hf.length_bound)
    have hbound := hf.length_bound
    rw [f.extWidth_wireByte1, length_minimalExt]
    grind
  key_width := by
    rw [f.maskedOf_wireByte1, Frame.wireKey]
    split <;> rfl
  payload_length := by rw [length_maskBytes, hf.declaredLen_eq]

/-! ### Both ends of a connection (R114, R144) -/

/-- The frame a TX sends is encodable as the frame it was given was. -/
theorem Frame.Encodable.sentBy {f : Frame} (hf : f.Encodable) (r : Role) : (f.sentBy r).Encodable :=
  ⟨hf.rsv_zero, hf.opcode_defined, hf.length_bound, hf.control_final, hf.control_short⟩

/-- A TX masks exactly when the RX at the other end demands it (R114, R144). -/
theorem txMasks_iff_opposite (r : Role) : txMasks r = true ↔ r.opposite = .server := by
  cases r <;> decide

/-- The key on the wire is the key that TX latched, and it is zero when none is on the wire (R113). -/
theorem keyOfBytes_wireKey_sentBy (f : Frame) (r : Role) : keyOfBytes (f.sentBy r).wireKey = txKey r f.key := by
  cases r <;> rfl

/-- An RX of the opposite role takes what a TX sends to DONE and emits the unmasked payload (R122). -/
theorem RxTakes.wire_sentBy {f : Frame} (hf : f.Encodable) (r : Role) :
    RxTakes r.opposite .cleared (f.sentBy r).wire
      (.frameRead (byte0 f.fin f.rsv f.opcode) (f.sentBy r).wireByte1 (minimalExt f.payload.length)
        (f.sentBy r).wireKey)
      f.payload := by
  have h := RxTakes.validFrame ((hf.sentBy r).validFrame (txMasks_iff_opposite r))
  rw [keyOfBytes_wireKey_sentBy, Frame.maskedOf_wireByte1] at h
  rw [Frame.wire_eq_frameBytes]
  simpa [Frame.sentBy] using h

/-- The mask bit a TX sends, an RX of its own role rejects (R144). -/
theorem byte1Check_of_same_role (r : Role) (op : BitVec 4) {d : Byte} (h : maskedOf d = txMasks r) :
    byte1Check r op d = some (if r = .client then .masked else .unmasked) := by
  rw [byte1Check, h]
  cases r <;> rfl

/-- An RX of the same role ends in ERROR at byte 1 of what a TX sends (R122). -/
theorem execAll_rxFeed_wire_of_same_role {f : Frame} (hf : f.Encodable) {u : State} (hrx : u.rx = RxUnit.cleared) :
    ∃ v, execAll (rxFeed (f.sentBy u.role).wire) u = .next v ∧ v.rx.state = .error ∧
      v.rx.errCause = some (if u.role = .client then .masked else .unmasked) := by
  have hb0 := RxTakes.first_byte (r := u.role) (b0 := byte0 f.fin f.rsv f.opcode) (byte0Check_eq_none_iff.mpr
    ⟨by simpa using hf.rsv_zero, by simpa using hf.opcode_defined, by simpa using hf.control_final⟩)
  have hcheck := byte1Check_of_same_role u.role f.opcode (f.sentBy u.role).maskedOf_wireByte1
  have hb1 := hb0.append (RxTakes.bad_second_byte (by rwa [byte0_opcode]))
  rw [Frame.wire_eq_frameBytes, frameBytes, ← List.singleton_append, ← List.singleton_append (x := Frame.wireByte1 _),
    ← List.append_assoc, rxFeed_append]
  exact ⟨_, (execAll_append_of_next (hb1 u rfl hrx)).trans (execAll_rxFeed_of_done_or_error _ _ (.inr rfl)), rfl, rfl⟩

/-- The two ends of a connection have different roles, and there are no others (R21). -/
theorem role_eq_opposite_iff {a b : Role} : a = b.opposite ↔ a ≠ b := by
  cases a <;> cases b <;> decide

/-- Settles O52: an RX of the TX's own role stops at byte 1, and the other reads the whole frame. -/
theorem decodeOfEncodedFrame : Obligations.DecodeOfEncodedFrame := by
  intro f s u hf hidle hrx
  have hsent := execAll_txFrame hf hidle
  by_cases hrole : u.role = s.role
  · obtain ⟨v, hv, herror, hcause⟩ := execAll_rxFeed_wire_of_same_role hf hrx
    exact ⟨_, _, v, hsent, rfl, hrole ▸ hv, fun hopp => absurd hrole (role_eq_opposite_iff.mp hopp),
      fun _ => ⟨herror, hcause⟩⟩
  · have hfed := RxTakes.wire_sentBy hf s.role u (role_eq_opposite_iff.mpr hrole) hrx
    have hmasked := (f.sentBy s.role).maskedOf_wireByte1
    have hlen := congrArg (BitVec.ofNat 64) (hf.sentBy s.role).declaredLen_eq
    exact ⟨_, _, _, hsent, rfl, hfed,
      fun _ => ⟨rfl, byte0_fin .., (byte0_rsv ..).trans hf.rsv_zero, byte0_opcode .., hmasked, hlen,
        keyOfBytes_wireKey_sentBy f s.role, rfl⟩,
      fun hsame => absurd hsame hrole⟩

end Sys2Proof.Machine
end

section
/-! PROOFS. What the invariant says of the RX registers in each RX_STATE but ERROR (spec 10_state.md R23 to R26). -/

namespace Sys2Proof.Machine

section
variable {r : Role} {rx : RxUnit}

theorem RxInv.hdr0_iff (hs : rx.state = .hdr0) : RxInv r rx ↔ rx = RxUnit.cleared := by
  rw [RxInv, hs]

theorem RxInv.hdr1_iff (hs : rx.state = .hdr1) :
    RxInv r rx ↔
      rx = { RxUnit.cleared with
        state := .hdr1, hpos := 1, b0 := rx.b0, fin := rx.b0.fin, opcode := rx.b0.opcode } ∧
      byte0Check rx.b0 = none := by
  rw [RxInv, hs]

theorem RxInv.extLen_iff (hs : rx.state = .extLen) :
    RxInv r rx ↔
      HeaderAccepted r rx ∧ NoKeyOrPayload rx ∧ NoRxError rx ∧ LengthPartial rx ∧ HposCounts rx := by
  rw [RxInv, hs]

theorem RxInv.maskKey_iff (hs : rx.state = .maskKey) :
    RxInv r rx ↔
      HeaderAccepted r rx ∧ LengthFinal rx ∧ NoRxError rx ∧ HposCounts rx ∧ rx.masked = true ∧ rx.keyIdx < 4#3 ∧
        rx.cnt = 0 := by
  rw [RxInv, hs]

theorem RxInv.payload_iff (hs : rx.state = .payload) :
    RxInv r rx ↔
      HeaderAccepted r rx ∧ LengthFinal rx ∧ NoRxError rx ∧ HposCounts rx ∧ KeyFinal rx ∧ rx.cnt < rx.len := by
  rw [RxInv, hs]

theorem RxInv.done_iff (hs : rx.state = .done) :
    RxInv r rx ↔
      HeaderAccepted r rx ∧ LengthFinal rx ∧ NoRxError rx ∧ HposCounts rx ∧ KeyFinal rx ∧ rx.cnt = rx.len := by
  rw [RxInv, hs]

end

end Sys2Proof.Machine
end

section
/-! PROOFS. The arms of RX_PUSH, RX_ACK and RX_RESET (spec 42_decoder.md R141 to R155): each check as the condition
the spec states, and one rule for each way an arm ends. -/

namespace Sys2Proof.Machine

/-! ### The arm that RX_STATE selects (R140) -/

section
variable {s : State}

theorem exec_rxPush_of_hdr0 (d : Byte) (h : s.rx.state = .hdr0) :
    exec (.rxPush d) s = .next ((s.setRx (rxHdr0 d s.rx)).respond true 0) := by
  rw [exec, execRxPush, rxPushByte, h]
  rfl

theorem exec_rxPush_of_hdr1 (d : Byte) (h : s.rx.state = .hdr1) :
    exec (.rxPush d) s = .next ((s.setRx (rxHdr1 s.role d s.rx)).respond true 0) := by
  rw [exec, execRxPush, rxPushByte, h]
  rfl

theorem exec_rxPush_of_extLen (d : Byte) (h : s.rx.state = .extLen) :
    exec (.rxPush d) s = .next ((s.setRx (rxExtLen d s.rx)).respond true 0) := by
  rw [exec, execRxPush, rxPushByte, h]
  rfl

theorem exec_rxPush_of_maskKey (d : Byte) (h : s.rx.state = .maskKey) :
    exec (.rxPush d) s = .next ((s.setRx (rxMaskKey d s.rx)).respond true 0) := by
  rw [exec, execRxPush, rxPushByte, h]
  rfl

theorem exec_rxPush_of_payload (d : Byte) (h : s.rx.state = .payload) :
    exec (.rxPush d) s = .next
      (((s.emitRx (mask d s.rx.key s.rx.cnt s.rx.masked)).setRx (rxPayload s.rx)).respond true 0) := by
  rw [exec, execRxPush, rxPushByte, h]
  rfl

theorem exec_rxPush_of_done_or_error (d : Byte) (h : s.rx.state = .done ∨ s.rx.state = .error) :
    exec (.rxPush d) s = .next (s.respond false 0) := by
  rw [exec, execRxPush, rxPushByte]
  obtain h | h := h <;> rw [h, reject]

end

/-! ### Byte 0 (R141, R142) -/

/-- The control bit of a byte 0 is its bit 3 (R73). -/
theorem isControl_opcode (d : Byte) : isControl d.opcode = d.getLsbD 3 := by
  revert d
  decide

/-- Settles O13: in each clause the checks before the failing one pass. -/
theorem rxPushByteZero : Obligations.RxPushByteZero := by
  intro d s hstate captured answers raises defined
  have hcontrol : isControl d.opcode = d.getLsbD 3 := isControl_opcode d
  have hdefined : defined ↔ definedOpcode d.opcode = true := (definedOpcode_iff d.opcode).symm
  have hrsv : d.extractLsb' 4 3 = d.rsv := rfl
  have hfin : d.getLsbD 7 = d.fin := rfl
  have raise {c : ProtocolCause} (h : byte0Check d = some c) : raises c := by
    refine ⟨?_, hcontrol⟩
    rw [exec_rxPush_of_hdr0 d hstate, rxHdr0, h]
    rfl
  rw [hdefined, ← hcontrol, hrsv, hfin]
  refine ⟨fun hr => raise ?_, fun hr hop => raise ?_, fun hr hop hctl hf => raise ?_, fun hr hop hctl => ?_⟩
  · rw [byte0Check, if_pos hr]
  · simp [byte0Check, hr, hop]
  · simp [byte0Check, hr, hop, hctl, hf]
  · have hcheck : byte0Check d = none :=
      byte0Check_eq_none_iff.mpr ⟨hr, hop, fun hc => hctl.resolve_left (by simp [hc])⟩
    refine ⟨?_, hcontrol⟩
    rw [exec_rxPush_of_hdr0 d hstate, rxHdr0, hcheck]
    rfl

/-! ### Byte 1 (R143 to R145) -/

section
variable {r : Role} {op : BitVec 4} {d : Byte}

theorem byte1Check_of_unmasked (hrole : r = .server) (hmask : maskedOf d = false) :
    byte1Check r op d = some .unmasked := by
  simp [byte1Check, rxDemandsMask, hrole, hmask]

theorem byte1Check_of_masked (hrole : r = .client) (hmask : maskedOf d = true) :
    byte1Check r op d = some .masked := by
  simp [byte1Check, rxDemandsMask, hrole, hmask]

theorem byte1Check_of_tooLong (hmask : maskedOf d = true ↔ r = .server) (hctl : isControl op = true)
    (hlong : 125 < (len7Of d).toNat) : byte1Check r op d = some .controlTooLong := by
  cases r <;> simp_all [byte1Check, rxDemandsMask, BitVec.lt_def]

end

section
variable {rx : RxUnit}

/-- The length field is the length (R145). -/
theorem afterByte1_of_inline (h : rx.len7.toNat ≤ 125) :
    afterByte1 rx = { rx with
      len := BitVec.ofNat 64 rx.len7.toNat, extNeed := 0
      state := if rx.masked = true then .maskKey else if rx.len7.toNat = 0 then .done else .payload } := by
  have hlen : rx.len7.setWidth 64 = BitVec.ofNat 64 rx.len7.toNat := (BitVec.ofNat_toNat ..).symm
  have hzero : BitVec.ofNat 64 rx.len7.toNat = 0 ↔ rx.len7.toNat = 0 := by
    rw [← BitVec.toNat_inj, BitVec.toNat_ofNat, Nat.mod_eq_of_lt (by omega)]
    rfl
  rw [afterByte1, if_pos (BitVec.le_def.mpr h), hlen, afterLen]
  simp only [hzero]

/-- The length field names the form (R145). -/
theorem afterByte1_of_extended (h : ¬ rx.len7.toNat ≤ 125) :
    afterByte1 rx = { rx with
      extNeed := if rx.len7.toNat = 126 then 2 else 8, extIdx := 0, len := 0, state := .extLen } := by
  have h126 : rx.len7 = 126 ↔ rx.len7.toNat = 126 := BitVec.toNat_inj.symm
  rw [afterByte1, if_neg (mt BitVec.le_def.mp h)]
  simp only [h126]

end

/-- Settles O17: the three checks in order, and the two length forms. -/
theorem rxPushByteOne : Obligations.RxPushByteOne := by
  intro d s hstate l7 m captured answers raises maskRight tooLong
  have raise {c : ProtocolCause} (h : byte1Check s.role s.rx.opcode d = some c) : raises c := by
    show exec (.rxPush d) s = _
    rw [exec_rxPush_of_hdr1 d hstate, rxHdr1, h]
    rfl
  have pass (hmask : maskRight) (hshort : ¬ tooLong) {rx : RxUnit} (h : afterByte1 captured = rx) : answers rx := by
    have hcheck : byte1Check s.role s.rx.opcode d = none :=
      byte1Check_eq_none_iff.mpr ⟨hmask, fun hctl => Nat.not_lt.mp fun hlong => hshort ⟨hctl, hlong⟩⟩
    show exec (.rxPush d) s = _
    rw [exec_rxPush_of_hdr1 d hstate, rxHdr1, hcheck, ← h]
    rfl
  refine ⟨fun hrole hm => raise (byte1Check_of_unmasked hrole hm),
    fun hrole hm => raise (byte1Check_of_masked hrole hm),
    fun hmask htoo => raise (byte1Check_of_tooLong hmask htoo.left htoo.right),
    fun hmask hshort hl7 => pass hmask hshort (afterByte1_of_inline hl7),
    fun hmask hshort hl7 => pass hmask hshort ?_, fun hmask hshort hl7 => pass hmask hshort ?_⟩
  · have hlen7 : captured.len7.toNat = 126 := hl7
    rw [afterByte1_of_extended (by omega), if_pos hlen7]
  · have hlen7 : captured.len7.toNat = 127 := hl7
    rw [afterByte1_of_extended (by omega), if_neg (by omega)]

/-! ### Extended-length bytes (R146 to R149) -/

section
variable {rx : RxUnit} {d : Byte}

/-- The byte counted is the first of a 64-bit length, and its bit 7 is 1 (R147). -/
theorem lenMsbCheck_iff {need idx : BitVec 4} :
    lenMsbCheck need (idx + 1) d = true ↔ need = 8 ∧ idx = 0 ∧ d.getLsbD 7 = true := by
  simp [lenMsbCheck, and_assoc]

/-- The length fits a shorter form (R76, R148). -/
theorem lenNonminimalCheck_iff {need : BitVec 4} {len : Word64} :
    lenNonminimalCheck need len = true ↔ (need = 2 ∧ len.toNat < 126) ∨ (need = 8 ∧ len.toNat < 65536) := by
  simp [lenNonminimalCheck, BitVec.lt_def]

theorem rxExtLen_of_msb (h : lenMsbCheck rx.extNeed (rx.extIdx + 1) d = true) :
    rxExtLen d rx = (rx.accumulated d).raise .lenMsbSet rx.hpos d :=
  if_pos h

theorem rxExtLen_of_overWide (hmsb : lenMsbCheck rx.extNeed (rx.extIdx + 1) d = false)
    (hlast : rx.extIdx + 1 = rx.extNeed) (hwide : lenNonminimalCheck rx.extNeed (rx.accumulated d).len = true) :
    rxExtLen d rx = (rx.accumulated d).raise .lenNonminimal rx.hpos d :=
  (if_neg (Bool.eq_false_iff.mp hmsb)).trans ((if_pos hlast).trans (if_pos hwide))

/-- The three ways an extended-length byte ends: an error, one more byte counted, or the length complete. -/
theorem rxExtLen_cases (d : Byte) (rx : RxUnit) :
    (rxExtLen d rx).state = .error ∨
    (lenMsbCheck rx.extNeed (rx.extIdx + 1) d = false ∧ rx.extIdx + 1 ≠ rx.extNeed ∧
      rxExtLen d rx = rx.accumulated d) ∨
    (rx.extIdx + 1 = rx.extNeed ∧ lenNonminimalCheck rx.extNeed (rx.accumulated d).len = false ∧
      rxExtLen d rx = { rx.accumulated d with state := afterLen rx.masked (rx.accumulated d).len }) := by
  cases hmsb : lenMsbCheck rx.extNeed (rx.extIdx + 1) d with
  | true => exact .inl (by rw [rxExtLen_of_msb hmsb, RxUnit.raise_state])
  | false =>
    by_cases hlast : rx.extIdx + 1 = rx.extNeed
    · cases hwide : lenNonminimalCheck rx.extNeed (rx.accumulated d).len with
      | true => exact .inl (by rw [rxExtLen_of_overWide hmsb hlast hwide, RxUnit.raise_state])
      | false => exact .inr (.inr ⟨hlast, rfl, rxExtLen_of_last hmsb hlast hwide⟩)
    · exact .inr (.inl ⟨rfl, hlast, rxExtLen_of_more hmsb hlast⟩)

end

/-- Settles O18: one rule of `rxExtLen` for each clause. -/
theorem rxPushExtendedLength : Obligations.RxPushExtendedLength := by
  intro d s hstate len counted answers raises msb last overWide
  have answer {rx : RxUnit} (h : rxExtLen d s.rx = rx) : answers rx := h ▸ exec_rxPush_of_extLen d hstate
  have hmsb : ¬ msb → lenMsbCheck s.rx.extNeed (s.rx.extIdx + 1) d = false :=
    fun h => Bool.eq_false_iff.mpr (mt lenMsbCheck_iff.mp h)
  have hwide : overWide ↔ lenNonminimalCheck s.rx.extNeed (s.rx.accumulated d).len = true :=
    lenNonminimalCheck_iff.symm
  rw [hwide, Bool.not_eq_true]
  exact ⟨fun h => answer (rxExtLen_of_msb (lenMsbCheck_iff.mpr h)),
    fun h hmore => answer (rxExtLen_of_more (hmsb h) hmore),
    fun h hlast hw => answer (rxExtLen_of_overWide (hmsb h) hlast hw),
    fun h hlast hw => answer (rxExtLen_of_last (hmsb h) hlast hw)⟩

/-- An extended length that is complete and in its minimal form is at least 126 (R148, R149). -/
theorem LengthPartial.le_of_minimal {rx : RxUnit} {len : Word64} (h : LengthPartial rx)
    (hmin : lenNonminimalCheck rx.extNeed len = false) : 126 ≤ len.toNat := by
  rw [Bool.eq_false_iff, ne_eq, lenNonminimalCheck_iff] at hmin
  obtain ⟨hneed, -⟩ | ⟨hneed, -⟩ := h
  · exact Nat.not_lt.mp fun hlt => hmin (.inl ⟨hneed, hlt⟩)
  · exact Nat.not_lt.mp fun hlt => hmin (.inr ⟨hneed, by omega⟩)

/-- Settles O19: a byte that completes the length has passed the minimal-width check. -/
theorem extendedLengthComplete : Obligations.ExtendedLengthComplete := by
  intro d s t hinv hstate hexec hcomplete hnoError
  obtain ⟨-, -, -, hpartial, -⟩ := (RxInv.extLen_iff hstate).mp hinv.rx
  obtain rfl : (s.setRx (rxExtLen d s.rx)).respond true 0 = t := by
    rw [exec_rxPush_of_extLen d hstate] at hexec
    injection hexec
  simp only [State.respond_rx, State.setRx_rx] at hcomplete hnoError ⊢
  obtain herror | ⟨-, hmore, hread⟩ | ⟨-, hmin, hread⟩ := rxExtLen_cases d s.rx
  · exact absurd herror hnoError
  · rw [hread] at hcomplete
    exact absurd hcomplete hmore
  · have hlen := hpartial.le_of_minimal hmin
    rw [hread]
    refine ⟨BitVec.le_def.mpr hlen, ?_⟩
    have hne : (s.rx.accumulated d).len ≠ 0 := by
      intro hzero
      simp [hzero] at hlen
    rw [afterLen, if_neg hne]
    rfl

/-! ### Key bytes and payload bytes (R150, R151) -/

/-- Settles O20: RX_KEY_IDX selects the byte, and the fourth is the last. -/
theorem rxPushMaskKey : Obligations.RxPushMaskKey := by
  intro d s hstate captured answers
  have answer {rx : RxUnit} (h : rxMaskKey d s.rx = rx) : answers rx := h ▸ exec_rxPush_of_maskKey d hstate
  refine ⟨fun hidx => answer ?_, fun hidx => answer ?_, fun hidx => answer ?_, fun hidx => answer ?_⟩ <;>
    simp [rxMaskKey, setKeyByte, captured, hidx]

/-- Settles O21: the mask is the lane's key byte. -/
theorem rxPushPayload : Obligations.RxPushPayload := by
  intro d s hstate lane
  rw [exec_rxPush_of_payload d hstate, mask, keyLane_index, rxPayload, hstate]
  rfl

/-- Settles O22: neither state consumes a byte. -/
theorem rxPushNotConsumed : Obligations.RxPushNotConsumed := fun d _ hstate =>
  exec_rxPush_of_done_or_error d hstate

/-! ### RX_ACK and RX_RESET (R154, R155) -/

/-- RX_ACK in DONE (R154). -/
theorem exec_rxAck_of_done {s : State} (h : s.rx.state = .done) : exec .rxAck s = .next (s.clearRx.respond true 0) := by
  rw [exec, execRxAck, h, accept]

/-- RX_ACK in any other state (R154). -/
theorem exec_rxAck_of_not_done {s : State} (h : s.rx.state ≠ .done) : exec .rxAck s = .next (s.respond false 0) := by
  rw [exec, execRxAck]
  cases hs : s.rx.state with
  | done => exact absurd hs h
  | hdr0 | hdr1 | extLen | maskKey | payload | error => rfl

/-- Settles O23: DONE against every other state. -/
theorem rxAckEffect : Obligations.RxAckEffect := fun _ => ⟨exec_rxAck_of_done, exec_rxAck_of_not_done⟩

/-- Settles O24: RX_RESET is `clearRx`, answered with `accept`. -/
theorem rxResetEffect : Obligations.RxResetEffect := fun _ => ⟨rfl, rfl, rfl, rfl⟩

end Sys2Proof.Machine
end

section
/-! PROOFS. What RX has read (spec 42_decoder.md R166): in every state but ERROR its registers and the payload bytes
it emitted spell the wire bytes it took since the frame's start. -/

namespace Sys2Proof.Machine

/-! ### The bytes that the registers spell -/

/-- The bytes of a number and one more byte are the bytes of the accumulated number (R11, R146). -/
theorem beBytes_accumulate (k n : Nat) (d : Byte) : beBytes (k + 1) (n * 256 + d.toNat) = beBytes k n ++ [d] := by
  induction k with
  | zero => simp [beBytes, BitVec.ofNat_add, BitVec.ofNat_mul]
  | succ k ih =>
    have hdiv : (n * 256 + d.toNat) / 256 ^ (k + 1) = n / 256 ^ k := by
      rw [Nat.pow_succ', ← Nat.div_div_eq_div_mul]
      have hd := d.isLt
      congr 1
      omega
    rw [beBytes, hdiv, ih, beBytes, List.cons_append]

/-- One more payload byte is masked at the next index (R101). -/
theorem maskBytes_concat (k : MaskKey) (m : Bool) (n : Nat) (bs : List Byte) (b : Byte) :
    maskBytes k m n (bs ++ [b]) = maskBytes k m n bs ++ [mask b k (BitVec.ofNat 64 (n + bs.length)) m] := by
  induction bs generalizing n with
  | nil => rfl
  | cons c cs ih => simp [ih, Nat.add_assoc, Nat.add_comm 1]

/-- The key byte at RX_KEY_IDX follows the key bytes before it (R150). -/
theorem keyBytes_setKeyByte (k : MaskKey) {j : BitVec 3} (hj : j < 4#3) (d : Byte) :
    (keyBytes (setKeyByte k j d)).take (j + 1).toNat = (keyBytes k).take j.toNat ++ [d] := by
  have hcase : j = 0 ∨ j = 1 ∨ j = 2 ∨ j = 3 := by
    revert j
    decide
  obtain rfl | rfl | rfl | rfl := hcase <;> rfl

/-- The wire bytes that the registers spell, with `out` the payload bytes emitted: the header bytes so far, then the
payload masked again. -/
def RxUnit.wireRead (rx : RxUnit) (out : List Byte) : List Byte :=
  [rx.b0, rx.b1].take rx.hpos.toNat ++ beBytes rx.extIdx.toNat rx.len.toNat
    ++ (keyBytes rx.key).take rx.keyIdx.toNat ++ maskBytes rx.key rx.masked 0 out

/-- In a block of role `r`, registers `rx` keep the invariant and account for every byte of `bs` taken since the
frame's start, `out` being the payload bytes emitted. -/
structure RxRead (r : Role) (rx : RxUnit) (bs out : List Byte) : Prop where
  inv : RxInv r rx
  bytes : rx.wireRead out = bs
  count : out.length = rx.cnt.toNat

theorem RxRead.start (r : Role) : RxRead r .cleared [] [] := ⟨rfl, rfl, rfl⟩

/-! ### The invariant where the next state depends on the length -/

section
variable {r : Role} {rx : RxUnit}

/-- With the header complete RX is in PAYLOAD or in DONE, as bytes are owed or not (R150, R151). -/
theorem RxInv.of_header_complete (hheader : HeaderAccepted r rx) (hlen : LengthFinal rx) (hnoError : NoRxError rx)
    (hpos : HposCounts rx) (hkey : KeyFinal rx) (hcnt : rx.cnt ≤ rx.len)
    (hstate : rx.state = if rx.cnt = rx.len then .done else .payload) : RxInv r rx := by
  by_cases hlast : rx.cnt = rx.len
  · rw [if_pos hlast] at hstate
    exact (RxInv.done_iff hstate).mpr ⟨hheader, hlen, hnoError, hpos, hkey, hlast⟩
  · rw [if_neg hlast] at hstate
    exact (RxInv.payload_iff hstate).mpr ⟨hheader, hlen, hnoError, hpos, hkey, BitVec.lt_of_le_ne hcnt hlast⟩

/-- With the length complete RX is where `after_len` says (R145, R149). -/
theorem RxInv.of_length_complete (hheader : HeaderAccepted r rx) (hlen : LengthFinal rx) (hnone : NoKeyOrPayload rx)
    (hnoError : NoRxError rx) (hpos : HposCounts rx) (hstate : rx.state = afterLen rx.masked rx.len) :
    RxInv r rx := by
  obtain ⟨hidx, hzero, hcnt⟩ := hnone
  cases hmasked : rx.masked with
  | true =>
    rw [hmasked, afterLen, if_pos rfl] at hstate
    exact (RxInv.maskKey_iff hstate).mpr ⟨hheader, hlen, hnoError, hpos, hmasked, by simp [hidx], hcnt⟩
  | false =>
    refine .of_header_complete hheader hlen hnoError hpos ⟨by simp [hidx, hmasked], fun _ => hzero⟩ ?_ ?_
    · rw [hcnt]
      exact BitVec.le_def.mpr (Nat.zero_le _)
    · rw [hstate, hmasked, hcnt, afterLen, if_neg Bool.false_ne_true]
      exact if_congr eq_comm rfl rfl

/-- Byte 1 completes the length, or leads to the extended length (R145). -/
theorem RxRead.of_byte1 (hheader : HeaderAccepted r rx) (hnone : NoKeyOrPayload rx) (hnoError : NoRxError rx)
    (hpos : rx.hpos = 2) (hidx : rx.extIdx = 0) : RxRead r (afterByte1 rx) [rx.b0, rx.b1] [] := by
  have ⟨hkeyIdx, _, hcnt⟩ := hnone
  have hcounts : rx.hpos.toNat = 2 + (0 : BitVec 4).toNat + rx.keyIdx.toNat := by
    rw [hpos, hkeyIdx]
    rfl
  have hcount : ([] : List Byte).length = rx.cnt.toNat := by simp [hcnt]
  by_cases hshort : rx.len7 ≤ 125#7
  · rw [afterByte1, if_pos hshort]
    refine ⟨.of_length_complete hheader ⟨hidx, .inl ⟨rfl, hshort, rfl⟩⟩ hnone hnoError (hidx ▸ hcounts) rfl, ?_, hcount⟩
    simp [RxUnit.wireRead, hpos, hidx, hkeyIdx, beBytes, maskBytes]
  · rw [afterByte1, if_neg hshort]
    refine ⟨⟨hheader, hnone, hnoError, ?_, hcounts⟩, ?_, hcount⟩
    · by_cases h126 : rx.len7 = 126
      · exact .inl ⟨if_pos h126, h126, Nat.two_pos, Nat.one_pos⟩
      · have h127 : rx.len7 = 127 := by bv_omega
        exact .inr ⟨if_neg h126, h127, Nat.succ_pos 7, Nat.two_pos⟩
    · simp [RxUnit.wireRead, hpos, hkeyIdx, beBytes, maskBytes]

/-! ### One more extended-length byte (R146 to R148) -/

/-- The accumulation so far leaves room for one more byte. -/
theorem LengthPartial.accumulated_len_toNat (h : LengthPartial rx) (d : Byte) :
    (rx.accumulated d).len.toNat = rx.len.toNat * 256 + d.toNat := by
  refine accumulate_toNat _ _ ?_
  obtain ⟨-, -, hidx, hlen⟩ | ⟨-, -, hidx, hlen⟩ := h
  · have : 256 ^ rx.extIdx.toNat ≤ 256 ^ 1 := Nat.pow_le_pow_right (by decide) (by omega)
    omega
  · have : 256 ^ rx.extIdx.toNat ≤ 256 ^ 7 := Nat.pow_le_pow_right (by decide) (by omega)
    omega

theorem LengthPartial.accumulated_extIdx_toNat (h : LengthPartial rx) (d : Byte) :
    (rx.accumulated d).extIdx.toNat = rx.extIdx.toNat + 1 := by
  refine BitVec.toNat_add_of_lt ?_
  obtain ⟨-, -, hidx, -⟩ | ⟨-, -, hidx, -⟩ := h <;> simp <;> omega

/-- Bit 7 of a byte is clear exactly below 128 (R147). -/
theorem getLsbD_7_eq_decide (d : Byte) : d.getLsbD 7 = decide (2 ^ 7 ≤ d.toNat) := by
  rw [← BitVec.msb_eq_getLsbD_last, BitVec.msb_eq_decide]

/-- With bit 7 of its first byte clear, an accumulation of `i` bytes stays in the lower half of its range (R147). -/
theorem accumulated_lt_half {i len d : Nat} (hlen : 2 * len < max 2 (256 ^ i)) (hd : d < 256)
    (hfirst : i = 0 → d < 128) : 2 * (len * 256 + d) < max 2 (256 ^ (i + 1)) := by
  cases i with
  | zero => omega
  | succ i =>
    have hpow : 0 < 256 ^ i := by positivity
    rw [Nat.pow_succ] at hlen
    rw [Nat.pow_succ, Nat.pow_succ]
    omega

/-- A byte that is not the last keeps the bounds of the accumulation. -/
theorem LengthPartial.accumulated (h : LengthPartial rx) {d : Byte}
    (hmsb : lenMsbCheck rx.extNeed (rx.extIdx + 1) d = false) (hmore : rx.extIdx + 1 ≠ rx.extNeed) :
    LengthPartial (rx.accumulated d) := by
  have hidx' := h.accumulated_extIdx_toNat d
  have hlen' := h.accumulated_len_toNat d
  have hd := d.isLt
  have hne : rx.extIdx.toNat + 1 ≠ rx.extNeed.toNat := fun heq => hmore (BitVec.eq_of_toNat_eq (hidx'.trans heq))
  obtain ⟨hneed, hlen7, hidx, hlen⟩ | ⟨hneed, hlen7, hidx, hlen⟩ := h
  · have hfirst : rx.extIdx.toNat = 0 := by
      rw [hneed] at hne
      change rx.extIdx.toNat + 1 ≠ 2 at hne
      omega
    refine .inl ⟨hneed, hlen7, by omega, ?_⟩
    rw [hfirst] at hlen
    rw [hlen', hidx', hfirst]
    omega
  · refine .inr ⟨hneed, hlen7, ?_, ?_⟩
    · rw [hneed] at hne
      change rx.extIdx.toNat + 1 ≠ 8 at hne
      omega
    · rw [hlen', hidx']
      refine accumulated_lt_half hlen hd fun hi => Nat.not_le.mp fun hhigh => ?_
      have hset : d.getLsbD 7 = true := (getLsbD_7_eq_decide d).trans (decide_eq_true hhigh)
      rw [lenMsbCheck_iff.mpr ⟨hneed, BitVec.eq_of_toNat_eq hi, hset⟩] at hmsb
      exact Bool.noConfusion hmsb

/-- The last byte of a length in its minimal form completes it. -/
theorem LengthPartial.lengthFinal (h : LengthPartial rx) {d : Byte} (hlast : rx.extIdx + 1 = rx.extNeed)
    (hmin : lenNonminimalCheck rx.extNeed (rx.accumulated d).len = false) : LengthFinal (rx.accumulated d) := by
  have hidx' : rx.extIdx.toNat + 1 = rx.extNeed.toNat := by
    rw [← h.accumulated_extIdx_toNat d, ← hlast]
    rfl
  have hlen' := h.accumulated_len_toNat d
  have hd := d.isLt
  have hlow : 126 ≤ (rx.accumulated d).len.toNat := h.le_of_minimal hmin
  rw [Bool.eq_false_iff, ne_eq, lenNonminimalCheck_iff] at hmin
  refine ⟨hlast, .inr ?_⟩
  obtain ⟨hneed, hlen7, -, hlen⟩ | ⟨hneed, hlen7, -, hlen⟩ := h
  · have hone : rx.extIdx.toNat = 1 := by simpa [hneed] using hidx'
    rw [hone] at hlen
    have hhigh : (rx.accumulated d).len.toNat ≤ 65535 := by omega
    exact .inl ⟨hneed, hlen7, BitVec.le_def.mpr hlow, BitVec.le_def.mpr hhigh⟩
  · have hseven : rx.extIdx.toNat = 7 := by simpa [hneed] using hidx'
    rw [hseven] at hlen
    have hlow : 65536 ≤ (rx.accumulated d).len.toNat := Nat.not_lt.mp fun hlt => hmin (.inr ⟨hneed, hlt⟩)
    have hhigh : (rx.accumulated d).len.toNat ≤ 2 ^ 63 - 1 := by omega
    exact .inr ⟨hneed, hlen7, BitVec.le_def.mpr hlow, BitVec.le_def.mpr hhigh⟩

end

/-! ### One byte, state by state (R140) -/

section
variable {r : Role} {rx : RxUnit} {bs out : List Byte}

/-- After both header bytes all of them are on the wire, and the counters say how much follows (R23, R77). -/
theorem HposCounts.wireRead_eq (h : HposCounts rx) (out : List Byte) :
    rx.wireRead out = [rx.b0, rx.b1] ++ beBytes rx.extIdx.toNat rx.len.toNat
      ++ (keyBytes rx.key).take rx.keyIdx.toNat ++ maskBytes rx.key rx.masked 0 out := by
  have htwo : [rx.b0, rx.b1].length ≤ rx.hpos.toNat := by
    rw [h, Nat.add_assoc]
    exact Nat.le_add_right ..
  rw [RxUnit.wireRead, List.take_of_length_le htwo]

theorem RxRead.out_eq_nil (h : RxRead r rx bs out) (hcnt : rx.cnt = 0) : out = [] := by
  simpa [hcnt] using h.count

/-- The header position does not wrap (R25). -/
theorem RxRead.hpos_succ_toNat (h : RxRead r rx bs out) : (rx.hpos + 1).toNat = rx.hpos.toNat + 1 := by
  have := h.inv.countersBounded.hpos_le
  exact BitVec.toNat_add_of_lt (by simp; omega)

/-- Byte 0 (R141, R142). -/
theorem RxRead.hdr0 (h : RxRead r rx bs out) (hstate : rx.state = .hdr0) (d : Byte) :
    (rxHdr0 d rx).state = .error ∨ RxRead r (rxHdr0 d rx) (bs ++ [d]) out := by
  obtain rfl := (RxInv.hdr0_iff hstate).mp h.inv
  obtain rfl := h.out_eq_nil rfl
  obtain rfl := h.bytes
  rw [rxHdr0]
  cases hcheck : byte0Check d with
  | some c => exact .inl rfl
  | none =>
    obtain ⟨hrsv, -⟩ := byte0Check_eq_none_iff.mp hcheck
    exact .inr ⟨⟨by rw [hrsv]; rfl, hcheck⟩, rfl, rfl⟩

/-- Byte 1 (R143 to R145). -/
theorem RxRead.hdr1 (h : RxRead r rx bs out) (hstate : rx.state = .hdr1) (d : Byte) :
    (rxHdr1 r d rx).state = .error ∨ RxRead r (rxHdr1 r d rx) (bs ++ [d]) out := by
  obtain ⟨hrx, hcheck0⟩ := (RxInv.hdr1_iff hstate).mp h.inv
  obtain ⟨hrsv, -⟩ := byte0Check_eq_none_iff.mp hcheck0
  have hread : rx = .byte0Read rx.b0 := by
    rw [RxUnit.byte0Read, hrsv]
    exact hrx
  generalize rx.b0 = b0 at hread hcheck0
  subst hread
  obtain rfl := h.out_eq_nil rfl
  obtain rfl := h.bytes
  rw [rxHdr1]
  cases hcheck : byte1Check r b0.opcode d with
  | some c => exact .inl (by rw [RxUnit.byte0Read, hcheck, RxUnit.raise_state])
  | none =>
    have hb1 : RxRead r (afterByte1 (.byte1Read b0 d)) [b0, d] [] :=
      .of_byte1 ⟨⟨rfl, rfl, rfl⟩, ⟨rfl, rfl⟩, hcheck0, hcheck⟩ ⟨rfl, rfl, rfl⟩ ⟨rfl, rfl, rfl⟩ rfl rfl
    right
    rw [RxUnit.byte0Read, hcheck]
    exact hb1

/-- An extended-length byte (R146 to R149). -/
theorem RxRead.extLen (h : RxRead r rx bs out) (hstate : rx.state = .extLen) (d : Byte) :
    (rxExtLen d rx).state = .error ∨ RxRead r (rxExtLen d rx) (bs ++ [d]) out := by
  obtain ⟨hheader, hnone, hnoError, hpartial, hpos⟩ := (RxInv.extLen_iff hstate).mp h.inv
  have hcounts : HposCounts (rx.accumulated d) := by
    rw [HposCounts] at hpos ⊢
    rw [hpartial.accumulated_extIdx_toNat, RxUnit.accumulated, h.hpos_succ_toNat, hpos]
    ring
  obtain rfl := h.out_eq_nil hnone.right.right
  have hbytes : (rx.accumulated d).wireRead [] = bs ++ [d] := by
    rw [← h.bytes, hpos.wireRead_eq, hcounts.wireRead_eq, hpartial.accumulated_len_toNat,
      hpartial.accumulated_extIdx_toNat, beBytes_accumulate]
    simp [RxUnit.accumulated, hnone.left, maskBytes]
  obtain herror | ⟨hmsb, hmore, hread⟩ | ⟨hlast, hmin, hread⟩ := rxExtLen_cases d rx
  · exact .inl herror
  · rw [hread]
    have hinv : RxInv r (rx.accumulated d) :=
      (RxInv.extLen_iff (rx := rx.accumulated d) hstate).mpr
        ⟨hheader, hnone, hnoError, hpartial.accumulated hmsb hmore, hcounts⟩
    exact .inr ⟨hinv, hbytes, h.count⟩
  · rw [hread]
    have hlen := hpartial.lengthFinal hlast hmin
    exact .inr ⟨.of_length_complete hheader hlen hnone hnoError hcounts rfl, hbytes, h.count⟩

/-- The registers after one more key byte, before its index is looked at (R150). -/
def RxUnit.keyCaptured (rx : RxUnit) (d : Byte) : RxUnit :=
  { rx with key := setKeyByte rx.key rx.keyIdx d, keyIdx := rx.keyIdx + 1, hpos := rx.hpos + 1 }

theorem rxMaskKey_of_more {d : Byte} (h : rx.keyIdx + 1 ≠ 4) : rxMaskKey d rx = rx.keyCaptured d :=
  if_neg h

theorem rxMaskKey_of_last {d : Byte} (h : rx.keyIdx + 1 = 4) :
    rxMaskKey d rx = { rx.keyCaptured d with state := if rx.len = 0 then .done else .payload } :=
  if_pos h

/-- A key byte (R150). -/
theorem RxRead.maskKey (h : RxRead r rx bs out) (hstate : rx.state = .maskKey) (d : Byte) :
    RxRead r (rxMaskKey d rx) (bs ++ [d]) out := by
  obtain ⟨hheader, hlen, hnoError, hpos, hmasked, hidx, hcnt⟩ := (RxInv.maskKey_iff hstate).mp h.inv
  obtain rfl := h.out_eq_nil hcnt
  have hcounts : HposCounts (rx.keyCaptured d) := by
    have hidx' : (rx.keyIdx + 1).toNat = rx.keyIdx.toNat + 1 := by bv_omega
    rw [HposCounts] at hpos ⊢
    rw [RxUnit.keyCaptured, h.hpos_succ_toNat, hidx', hpos]
    ring
  have hbytes : (rx.keyCaptured d).wireRead [] = bs ++ [d] := by
    rw [← h.bytes, hpos.wireRead_eq, hcounts.wireRead_eq]
    have hkeys : (keyBytes (rx.keyCaptured d).key).take (rx.keyCaptured d).keyIdx.toNat =
        (keyBytes rx.key).take rx.keyIdx.toNat ++ [d] := keyBytes_setKeyByte rx.key hidx d
    rw [hkeys]
    simp [RxUnit.keyCaptured, maskBytes]
  by_cases hlast : rx.keyIdx + 1 = 4
  · rw [rxMaskKey_of_last hlast]
    refine ⟨.of_header_complete hheader hlen hnoError hcounts ?_ ?_ ?_, hbytes, h.count⟩
    · exact ⟨hlast.trans (if_pos hmasked).symm, by simp [RxUnit.keyCaptured, hmasked]⟩
    · exact BitVec.le_def.mpr (by simp [RxUnit.keyCaptured, hcnt])
    · rw [RxUnit.keyCaptured, hcnt]
      exact if_congr eq_comm rfl rfl
  · rw [rxMaskKey_of_more hlast]
    have hidx' : rx.keyIdx + 1 < 4#3 := by bv_omega
    have hinv : RxInv r (rx.keyCaptured d) :=
      (RxInv.maskKey_iff (rx := rx.keyCaptured d) hstate).mpr
        ⟨hheader, hlen, hnoError, hcounts, hmasked, hidx', hcnt⟩
    exact ⟨hinv, hbytes, h.count⟩

/-- A payload byte (R151): emitted unmasked, and masked again it is the byte taken. -/
theorem RxRead.payload (h : RxRead r rx bs out) (hstate : rx.state = .payload) (d : Byte) :
    RxRead r (rxPayload rx) (bs ++ [d]) (out ++ [mask d rx.key rx.cnt rx.masked]) := by
  obtain ⟨hheader, hlen, hnoError, hpos, hkey, hcnt⟩ := (RxInv.payload_iff hstate).mp h.inv
  have hsucc : (rx.cnt + 1).toNat = rx.cnt.toNat + 1 := by bv_omega
  have hindex : BitVec.ofNat 64 out.length = rx.cnt := by
    rw [h.count, BitVec.ofNat_toNat, BitVec.setWidth_eq]
  refine ⟨.of_header_complete hheader hlen hnoError hpos hkey ?_ ?_, ?_, ?_⟩
  · show rx.cnt + 1 ≤ rx.len
    bv_omega
  · rw [rxPayload, hstate]
  · rw [← h.bytes]
    simp [RxUnit.wireRead, rxPayload, maskBytes_concat, hindex]
  · rw [List.length_append, h.count]
    exact hsucc.symm

/-- One byte that RX takes: it enters ERROR, or its registers account for that byte too. -/
theorem RxRead.push (h : RxRead r rx bs out) (hmore : ¬ (rx.state = .done ∨ rx.state = .error)) (d : Byte) :
    ∃ rx' new, RxTakes r rx [d] rx' new ∧ (rx'.state = .error ∨ RxRead r rx' (bs ++ [d]) (out ++ new)) := by
  cases hs : rx.state with
  | hdr0 => exact ⟨_, [], .hdr0 d hs, by simpa using h.hdr0 hs d⟩
  | hdr1 => exact ⟨_, [], .hdr1 d hs, by simpa using h.hdr1 hs d⟩
  | extLen => exact ⟨_, [], .extLen d hs, by simpa using h.extLen hs d⟩
  | maskKey => exact ⟨_, [], .maskKey d hs, .inr (by simpa using h.maskKey hs d)⟩
  | payload => exact ⟨_, _, .payload d hs, .inr (h.payload hs d)⟩
  | done => exact absurd (.inl hs) hmore
  | error => exact absurd (.inr hs) hmore

/-- Bytes that are all taken and lead to DONE are accounted for. -/
theorem RxRead.feed {s t : State} {read : List Byte} (h : RxRead s.role s.rx read out)
    (hfed : execAll (rxFeed bs) s = .next t) (hdone : t.rx.state = .done)
    (htaken : t.responses = s.responses ++ List.replicate bs.length ⟨true, 0⟩) :
    ∃ new, t.rxOut = s.rxOut ++ new ∧ RxRead s.role t.rx (read ++ bs) (out ++ new) := by
  induction bs generalizing s read out with
  | nil =>
    obtain rfl : s = t := by simpa [rxFeed] using hfed
    exact ⟨[], by simp, by simpa using h⟩
  | cons d ds ih =>
    have hmore : ¬ (s.rx.state = .done ∨ s.rx.state = .error) := by
      intro hstop
      rw [execAll_rxFeed_of_done_or_error _ _ hstop] at hfed
      injection hfed with hfed
      subst hfed
      simp [List.replicate_succ] at htaken
    obtain ⟨rx', new, htakes, hread⟩ := h.push hmore d
    rw [← List.singleton_append, rxFeed_append, execAll_append_of_next (htakes s rfl rfl)] at hfed
    obtain herror | hread := hread
    · rw [execAll_rxFeed_of_done_or_error _ _ (.inr herror)] at hfed
      injection hfed with hfed
      subst hfed
      exact absurd (herror.symm.trans hdone) (by decide)
    · obtain ⟨rest, hout, hrest⟩ := ih hread hfed (by simpa [State.took, List.replicate_succ] using htaken)
      exact ⟨new ++ rest, by simpa [State.took] using hout, by simpa [State.took] using hrest⟩

end
end Sys2Proof.Machine
end

section
/-! PROOFS. A frame that RX holds complete, sent again by a TX of the opposite role (spec 42_decoder.md R166). -/

namespace Sys2Proof.Machine

section
variable {r : Role} {rx : RxUnit} {bs out : List Byte}

/-! ### A complete header is the header a TX sends -/

/-- A byte 1 is its mask bit and its length field (R71). -/
@[simp] theorem byte1_of_fields (b : Byte) : byte1 (maskedOf b) (len7Of b) = b := by
  revert b
  decide

/-- A complete length and its form in plain arithmetic (R75). -/
theorem LengthFinal.toNat_cases (h : LengthFinal rx) :
    (rx.extIdx.toNat = 0 ∧ rx.len7.toNat = rx.len.toNat ∧ rx.len.toNat ≤ 125) ∨
    (rx.extIdx.toNat = 2 ∧ rx.len7.toNat = 126 ∧ 126 ≤ rx.len.toNat ∧ rx.len.toNat ≤ 65535) ∨
    (rx.extIdx.toNat = 8 ∧ rx.len7.toNat = 127 ∧ 65536 ≤ rx.len.toNat) := by
  obtain ⟨hidx, ⟨hneed, hlen7, hlen⟩ | ⟨hneed, hlen7, hlow, hhigh⟩ | ⟨hneed, hlen7, hlow, -⟩⟩ := h
  · have hvalue : rx.len.toNat = rx.len7.toNat := by
      rw [hlen, BitVec.toNat_setWidth]
      omega
    exact .inl ⟨by rw [hidx, hneed]; rfl, hvalue.symm, hvalue.trans_le (BitVec.le_def.mp hlen7)⟩
  · exact .inr (.inl ⟨by rw [hidx, hneed]; rfl, by rw [hlen7]; rfl, BitVec.le_def.mp hlow, BitVec.le_def.mp hhigh⟩)
  · exact .inr (.inr ⟨by rw [hidx, hneed]; rfl, by rw [hlen7]; rfl, BitVec.le_def.mp hlow⟩)

/-- The length field of a complete length is the minimal form's (R75, R148). -/
theorem LengthFinal.lengthField_eq (h : LengthFinal rx) : lengthField rx.len = rx.len7 := by
  apply BitVec.eq_of_toNat_eq
  rw [lengthField_toNat, minimalLen7]
  obtain ⟨-, hlen7, hle⟩ | ⟨-, hlen7, hlow, hhigh⟩ | ⟨-, hlen7, hlow⟩ := h.toNat_cases
  · rw [if_pos hle, hlen7]
  · rw [if_neg (by omega), if_pos hhigh, hlen7]
  · rw [if_neg (by omega), if_neg (by omega), hlen7]

/-- The extended-length bytes of a complete length are the minimal form's (R75, R148). -/
theorem LengthFinal.extBytes_eq (h : LengthFinal rx) : extBytes rx.len = beBytes rx.extIdx.toNat rx.len.toNat := by
  rw [extBytes_eq_minimalExt, minimalExt]
  obtain ⟨hidx, -, hle⟩ | ⟨hidx, -, hlow, hhigh⟩ | ⟨hidx, -, hlow⟩ := h.toNat_cases
  · rw [if_pos hle, hidx, beBytes]
  · rw [if_neg (by omega), if_pos hhigh, hidx]
  · rw [if_neg (by omega), if_neg (by omega), hidx]

/-- A control frame's length is inline (R144). -/
theorem LengthFinal.len_le (h : LengthFinal rx) (hshort : rx.len7.toNat ≤ 125) : rx.len.toNat ≤ 125 := by
  obtain ⟨-, -, hle⟩ | ⟨-, hlen7, -⟩ | ⟨-, hlen7, -⟩ := h.toNat_cases <;> omega

/-- A TX that masks as the frame does latches the frame's key (R113). -/
theorem KeyFinal.txKey_eq {r' : Role} (h : KeyFinal rx) (hmask : txMasks r' = rx.masked) :
    txKey r' rx.key = rx.key := by
  rw [txKey, hmask]
  cases hm : rx.masked with
  | true => rfl
  | false => exact (h.right hm).symm

/-- A masked frame carries its four key bytes, another none (R78). -/
theorem KeyFinal.keyBytes_eq (h : KeyFinal rx) :
    (keyBytes rx.key).take rx.keyIdx.toNat = if rx.masked then keyBytes rx.key else [] := by
  rw [h.left]
  cases rx.masked <;> rfl

/-- TX masks exactly when an RX of the opposite role takes only masked frames (R114, R144). -/
theorem txMasks_opposite_of_byte1Check {op : BitVec 4} {d : Byte} (h : byte1Check r op d = none) :
    txMasks r.opposite = maskedOf d := by
  obtain ⟨hmask, -⟩ := byte1Check_eq_none_iff.mp h
  rw [Bool.eq_iff_iff, txMasks_iff_opposite, hmask]
  cases r <;> rfl

/-! ### The frame (R166) -/

/-- The frame that RX holds in DONE, with the payload bytes it emitted. -/
def RxUnit.frame (rx : RxUnit) (payload : List Byte) : Frame :=
  ⟨rx.fin, 0, rx.opcode, rx.masked, rx.key, payload⟩

/-- In DONE every payload byte has been emitted (R151). -/
theorem RxRead.length_out (h : RxRead r rx bs out) (hdone : rx.state = .done) : out.length = rx.len.toNat := by
  obtain ⟨-, -, -, -, -, hcnt⟩ := (RxInv.done_iff hdone).mp h.inv
  rw [h.count, hcnt]

theorem RxRead.ofNat_length_out (h : RxRead r rx bs out) (hdone : rx.state = .done) :
    BitVec.ofNat 64 out.length = rx.len := by
  rw [h.length_out hdone, BitVec.ofNat_toNat, BitVec.setWidth_eq]

/-- A frame that passed RX's checks passes TX's (R112, R142, R144, R147). -/
theorem RxRead.frame_encodable (h : RxRead r rx bs out) (hdone : rx.state = .done) : (rx.frame out).Encodable := by
  have hout := h.length_out hdone
  obtain ⟨⟨⟨hfin, -, hop⟩, ⟨-, hlen7⟩, hcheck0, hcheck1⟩, hlen, -⟩ := (RxInv.done_iff hdone).mp h.inv
  obtain ⟨-, hdefined, hfinal⟩ := byte0Check_eq_none_iff.mp hcheck0
  obtain ⟨-, hshort⟩ := byte1Check_eq_none_iff.mp hcheck1
  rw [← hop] at hdefined hfinal
  rw [← hfin] at hfinal
  rw [← hlen7] at hshort
  have hbound : out.length < 2 ^ 63 := by
    have := hlen.bounded.len_le
    omega
  exact ⟨rfl, hdefined, hbound, hfinal, fun hctl => hout.trans_le (hlen.len_le (hshort hctl))⟩

/-- The wire bytes of that frame, sent from the other end, are the bytes RX took. -/
theorem RxRead.wire_eq (h : RxRead r rx bs out) (hdone : rx.state = .done) :
    ((rx.frame out).sentBy r.opposite).wire = bs := by
  have hvalue := h.ofNat_length_out hdone
  obtain ⟨⟨⟨hfin, -, hop⟩, ⟨hmasked, hlen7⟩, hcheck0, hcheck1⟩, hlen, -, hpos, hkey, -⟩ :=
    (RxInv.done_iff hdone).mp h.inv
  have hrsv : rx.b0.rsv = 0#3 := (byte0Check_eq_none_iff.mp hcheck0).left
  have hmask : txMasks r.opposite = rx.masked := (txMasks_opposite_of_byte1Check hcheck1).trans hmasked.symm
  have hb0 : byte0 rx.fin 0#3 rx.opcode = rx.b0 := by rw [hfin, hop, ← hrsv, byte0_of_fields]
  have hb1 : byte1 rx.masked rx.len7 = rx.b1 := by rw [hmasked, hlen7, byte1_of_fields]
  rw [Frame.wire_sentBy (h.frame_encodable hdone), ← h.bytes, hpos.wireRead_eq, headerBytes]
  simp [RxUnit.frame, hmask, hvalue, hlen.lengthField_eq, hlen.extBytes_eq, hkey.txKey_eq hmask, hkey.keyBytes_eq,
    hb0, hb1]

end

/-- Settles O55: the bytes are the wire bytes of the frame that RX holds, and the TX sends that frame. -/
theorem encodeOfDecodedFrame : Obligations.EncodeOfDecodedFrame := by
  intro bytes emitted s t u hcleared hfed hdone htaken hemitted hrole hidle
  obtain ⟨out, hout, hread⟩ := RxRead.feed (hcleared ▸ RxRead.start s.role) hfed hdone htaken
  obtain rfl : emitted = out := List.append_cancel_left (hemitted.symm.trans hout)
  have hread : RxRead s.role t.rx bytes emitted := hread
  have hsent := execAll_txFrame (hread.frame_encodable hdone) hidle
  rw [hrole, hread.wire_eq hdone] at hsent
  have hcommands : txFrame t.rx.fin t.rx.opcode t.rx.key emitted =
      .txStart t.rx.fin 0 t.rx.opcode t.rx.len t.rx.key :: emitted.map .txPush := by
    rw [txFrame, hread.ofNat_length_out hdone]
  exact ⟨_, hcommands ▸ hsent, rfl⟩

end Sys2Proof.Machine
end

section
/-! PROOFS. RD_REG and the words with a reserved CODE (spec 43_register_access.md R180, R181, R183). -/

namespace Sys2Proof.Machine

/-- RD_REG of a mapped index answers the register's value and changes nothing else (R180). -/
theorem execRdReg_index (g : Reg) (s : State) : execRdReg g.index s = .next (s.respond true (g.value s)) := by
  rw [execRdReg, Reg.ofIndex_index]

/-- The indices up to CMD_ERR's are registers' (R32). -/
theorem Reg.exists_index_of_le {idx : Byte} (h : idx.toNat ≤ 0x10) : ∃ g : Reg, g.index = idx := by
  have hmapped : Reg.ofIndex idx ≠ none := mt (Reg.ofIndex_eq_none_iff idx).mp h.not_gt
  obtain ⟨g, hg⟩ := Option.ne_none_iff_exists'.mp hmapped
  exact ⟨g, Reg.index_of_ofIndex idx g hg⟩

/-- IllegalCommand, written out: CMD_ERR keeps the first record, and the answer is `accepted = 0` (R214). -/
theorem raiseIllegal_eq (code : BitVec 4) (g : IllegalReason) (s : State) :
    raiseIllegal code g s = .next
      { s with
        cmdErr := if s.cmdErr.illegal = true then s.cmdErr else ⟨true, code, some g⟩
        responses := s.responses ++ [⟨false, 0⟩] } :=
  raiseIllegal_eq_next.mpr rfl

/-- Settles O34: a mapped index is a register's and answers its value, an unmapped one raises IllegalCommand. -/
theorem rdRegEffect : Obligations.RdRegEffect := by
  intro idx s
  refine ⟨fun g hg => ?mapped, Reg.exists_index_of_le, fun hidx => ?unmapped⟩
  case mapped => exact hg ▸ execRdReg_index g s
  case unmapped => exact (execRdReg_of_unmapped hidx s).trans (raiseIllegal_eq 0x7 .unmappedIndex s)

/-- Settles O36: RESERVED_CODE raises IllegalCommand with its CODE, and its other bits are not read. -/
theorem reservedCodeIsIllegal : Obligations.ReservedCodeIsIllegal := fun code _ s _ =>
  raiseIllegal_eq code .reservedCode s

end Sys2Proof.Machine
end

section
/-! PROOFS. The words of the commands that give RX a byte or clear a unit (spec 30_encoding.md R81, R82): RX_PUSH,
RX_RESET and TX_RESET are each spelled by one form of word only. -/

namespace Sys2Proof

section
variable {c : Command}

/-- A word that decodes is read by its fields; with a defined CODE no reserved bit is 1 (R83, R184). -/
theorem commandOf_of_decodeCommand {i : Instr} (h : decodeCommand c = .ok i) :
    commandOf c = i ∧ (c.toNat % 16 < 8 → ∀ j, ReservedAt (c.toNat % 16) j → c.getLsbD j = false) := by
  rw [decodeCommand] at h
  split at h
  next hcode =>
    rw [BitVec.le_def, c.code_toNat] at hcode
    injection h with h
    exact ⟨h, fun hdefined => absurd hdefined (Nat.not_lt.mpr hcode)⟩
  next =>
    split at h
    next hzero =>
      injection h with h
      refine ⟨h, fun hdefined j hres => Bool.eq_false_iff.mpr fun hbit => ?_⟩
      exact (and_reservedBits_eq_zero_iff hdefined).mp hzero ⟨j, hbit, hres⟩
    next => cases h

/-- A word whose bits above CODE are 0 is a command word without fields. -/
theorem eq_encodeBareCommand (h : ∀ j, 4 ≤ j → c.getLsbD j = false) : c = encodeBareCommand c.code := by
  refine BitVec.eq_of_getLsbD_eq fun j _ => ?_
  simp only [encodeBareCommand, BitVec.getLsbD_append, Command.code, BitVec.getLsbD_extractLsb']
  by_cases hcode : j < 4
  · simp [hcode]
  · simp [hcode, h j (Nat.not_lt.mp hcode)]

/-- A word whose bits outside CODE and `C[15:8]` are 0 is a command word with that byte as its only field. -/
theorem eq_encodeByteCommand (h : ∀ j, (4 ≤ j ∧ j < 8) ∨ 16 ≤ j → c.getLsbD j = false) :
    c = encodeByteCommand c.code c.operandByte := by
  refine BitVec.eq_of_getLsbD_eq fun j _ => ?_
  simp only [encodeByteCommand, BitVec.getLsbD_append, Command.code, Command.operandByte, BitVec.getLsbD_extractLsb']
  by_cases hcode : j < 4
  · simp [hcode]
  by_cases hlow : j < 8
  · simp [hcode, h j (by omega), show j - 4 < 4 by omega]
  by_cases hoperand : j < 16
  · simp [hcode, show ¬ j - 4 < 4 by omega, show j - 4 - 4 < 8 by omega, show 8 + (j - 4 - 4) = j by omega]
  · simp [hcode, show ¬ j - 4 < 4 by omega, show ¬ j - 4 - 4 < 8 by omega, h j (by omega)]

/-- The CODEs of RX_PUSH, RX_RESET and TX_RESET (R81). -/
theorem code_of_commandOf (c : Command) :
    (∀ d, commandOf c = .rxPush d → c.code.toNat = 1 ∧ c.operandByte = d) ∧
    (commandOf c = .rxReset → c.code.toNat = 3) ∧ (commandOf c = .txReset → c.code.toNat = 6) := by
  unfold commandOf
  split <;> simp_all

theorem eq_of_decodeCommand_rxPush {d : Byte} (h : decodeCommand c = .ok (.rxPush d)) :
    c = encodeByteCommand 0x1 d := by
  obtain ⟨hcommand, hreserved⟩ := commandOf_of_decodeCommand h
  obtain ⟨hcode, hoperand⟩ := (code_of_commandOf c).left d hcommand
  have hone : c.code = 0x1 := BitVec.eq_of_toNat_eq hcode
  rw [← hone, ← hoperand]
  rw [c.code_toNat] at hcode
  rw [hcode] at hreserved
  exact eq_encodeByteCommand fun j hj => hreserved (by decide) j (.inr (.inl ⟨by decide, hj⟩))

/-- A word that spells a command without fields. -/
theorem eq_of_decodeCommand_bare {i : Instr} {k : BitVec 4} (h : decodeCommand c = .ok i)
    (hcode : c.code.toNat = k.toNat) (hk : k.toNat ∈ [0, 2, 3, 6]) : c = encodeBareCommand k := by
  obtain ⟨-, hreserved⟩ := commandOf_of_decodeCommand h
  have hdefined : k.toNat < 8 := by
    simp only [List.mem_cons, List.not_mem_nil, or_false] at hk
    omega
  rw [← c.code_toNat, hcode] at hreserved
  rw [← BitVec.eq_of_toNat_eq hcode]
  exact eq_encodeBareCommand fun j hj => hreserved hdefined j (.inl ⟨hk, hj⟩)

theorem eq_of_decodeCommand_rxReset (h : decodeCommand c = .ok .rxReset) : c = encodeBareCommand 0x3 :=
  have ⟨hcommand, _⟩ := commandOf_of_decodeCommand h
  eq_of_decodeCommand_bare h ((code_of_commandOf c).right.left hcommand) (by decide)

theorem eq_of_decodeCommand_txReset (h : decodeCommand c = .ok .txReset) : c = encodeBareCommand 0x6 :=
  have ⟨hcommand, _⟩ := commandOf_of_decodeCommand h
  eq_of_decodeCommand_bare h ((code_of_commandOf c).right.right hcommand) (by decide)

end

/-! ### The instructions that give RX a byte (R140, R156 to R162) -/

/-- The wire byte that an instruction gives RX: RX_PUSH's operand, or the byte 0 that the instruction is. -/
def Instr.wireByte : Instr → Option Byte
  | .rxPush d => some d
  | .cont fin => some (byte0 fin 0 0x0)
  | .text fin => some (byte0 fin 0 0x1)
  | .bin fin => some (byte0 fin 0 0x2)
  | .close => some (byte0 true 0 0x8)
  | .ping => some (byte0 true 0 0x9)
  | .pong => some (byte0 true 0 0xA)
  | .reservedOp3 fin rsv => some (byte0 fin rsv 0x3)
  | .reservedOp4 fin rsv => some (byte0 fin rsv 0x4)
  | .reservedOp5 fin rsv => some (byte0 fin rsv 0x5)
  | .reservedOp6 fin rsv => some (byte0 fin rsv 0x6)
  | .reservedOp7 fin rsv => some (byte0 fin rsv 0x7)
  | .reservedOpB fin rsv => some (byte0 fin rsv 0xB)
  | .reservedOpC fin rsv => some (byte0 fin rsv 0xC)
  | .reservedOpD fin rsv => some (byte0 fin rsv 0xD)
  | .reservedOpE fin rsv => some (byte0 fin rsv 0xE)
  | .reservedOpF fin rsv => some (byte0 fin rsv 0xF)
  | .nop | .rxAck | .rxReset | .txStart .. | .txPush _ | .txReset | .rdReg _ | .reservedCode .. => none

/-- Such an instruction is the RX_PUSH of its byte. -/
theorem Machine.exec_of_wireByte {i : Instr} {d : Byte} (h : i.wireByte = some d) (s : Machine.State) :
    Machine.exec i s = Machine.rxPushByte d s := by
  cases i <;> cases h <;> rfl

/-- A byte's fields with its opcode as a number give the byte back (R70). -/
theorem byte0_of_opcode_toNat {b : Byte} {n : Nat} (h : b.opcode.toNat = n) :
    byte0 b.fin b.rsv (BitVec.ofNat 4 n) = b := by
  rw [← h, BitVec.ofNat_toNat, BitVec.setWidth_eq, byte0_of_fields]

theorem rsv_of_dataFrame {b : Byte} {f : Bool → Instr} {i : Instr} (h : dataFrame b f = .ok i) : b.rsv = 0 := by
  unfold dataFrame at h
  split at h
  · assumption
  · cases h

theorem rsv_fin_of_controlFrame {b : Byte} {j i : Instr} (h : controlFrame b j = .ok i) :
    b.rsv = 0 ∧ b.fin = true := by
  unfold controlFrame at h
  split at h
  · cases h
  next hrsv =>
    split at h
    next hfin => exact ⟨not_not.mp hrsv, hfin⟩
    next => cases h

/-- The instruction that a byte 0 spells gives RX that byte. -/
theorem wireByte_of_decodeByte0 {b : Byte} {i : Instr} (h : decodeByte0 b = .ok i) : i.wireByte = some b := by
  unfold decodeByte0 at h
  split at h
  case h_1 hop | h_2 hop | h_3 hop =>
    have hb := byte0_of_opcode_toNat hop
    rw [rsv_of_dataFrame h] at hb
    cases Machine.eq_of_dataFrame h
    exact congrArg some hb
  case h_9 hop | h_10 hop | h_11 hop =>
    have hb := byte0_of_opcode_toNat hop
    obtain ⟨hrsv, hfin⟩ := rsv_fin_of_controlFrame h
    rw [hrsv, hfin] at hb
    cases Machine.eq_of_controlFrame h
    exact congrArg some hb
  case h_16 =>
    have hop : b.opcode.toNat = 0xF := by
      have hlt := b.opcode.isLt
      grind
    cases h
    exact congrArg some (byte0_of_opcode_toNat hop)
  all_goals
    next hop =>
      cases h
      exact congrArg some (byte0_of_opcode_toNat hop)

/-- Of the commands only RX_PUSH gives RX a byte. -/
theorem wireByte_commandOf {c : Command} (h : ∀ d, commandOf c ≠ .rxPush d) : (commandOf c).wireByte = none := by
  unfold commandOf at h ⊢
  split
  case h_2 hone =>
    simp only [hone] at h
    exact absurd rfl (h c.operandByte)
  all_goals rfl

/-- The block performs an instruction that gives RX the byte of the RX_PUSH presented, or the command presented, which
gives RX none (R140). -/
theorem decodeAt_eq_ok {c : Command} {start : Bool} {i : Instr} (h : decodeAt start c = .ok i) :
    (∃ d, decodeCommand c = .ok (.rxPush d) ∧ i.wireByte = some d) ∨
    (decodeCommand c = .ok i ∧ i.wireByte = none) := by
  unfold decodeAt at h
  split at h
  next d hcommand =>
    refine .inl ⟨d, hcommand, ?_⟩
    split at h
    · split at h <;> cases h
      next hbyte => exact wireByte_of_decodeByte0 hbyte
      next => rfl
    · cases h
      rfl
  next hpush =>
    obtain ⟨hcommand, -⟩ := commandOf_of_decodeCommand h
    refine .inr ⟨h, ?_⟩
    rw [← hcommand]
    exact wireByte_commandOf fun d hd => hpush d (by rw [h, ← hcommand, hd])

end Sys2Proof
end

section
/-! PROOFS. What one step can do (spec 00_scope.md R8, 20_memory.md R65): the host's next event is none, a byte for RX,
another command, an illegal word, a level of the strap, or a hardware reset. -/

namespace Sys2Proof.Machine

/-- The state a step leads to, by the host's next event. A byte for RX comes as the word of an RX_PUSH (R140). -/
inductive StepOutcome (s : State) : State → Prop
  | idle (hport : s.port = []) : StepOutcome s s
  | push (d : Byte) (rest : List HostEvent) (t : State) (hport : s.port = .command (encodeByteCommand 0x1 d) :: rest)
      (hpush : rxPushByte d (s.setPort rest) = .next t) : StepOutcome s t
  | command (c : Command) (i : Instr) (rest : List HostEvent) (t : State) (hport : s.port = .command c :: rest)
      (hdecode : decodeCommand c = .ok i) (hbyte : i.wireByte = none)
      (hexec : exec i (s.setPort rest) = .next t) : StepOutcome s t
  | illegal (c : Command) (code : BitVec 4) (rest : List HostEvent) (hport : s.port = .command c :: rest)
      (hdecode : decodeAt s.atFrameStart c = .error (.reservedBit code)) :
      StepOutcome s (((s.setPort rest).setCmdErr (s.cmdErr.record code .reservedBit)).respond false 0)
  | strap (level : Role) (rest : List HostEvent) (hport : s.port = .strap level :: rest) :
      StepOutcome s ((s.setPort rest).driveStrap level)
  | hardReset (rest : List HostEvent) (hport : s.port = .hardReset :: rest) :
      StepOutcome s (s.setPort rest).hardReset

theorem stepOutcome {s t : State} (h : step s = .next t) : StepOutcome s t := by
  cases hport : s.port with
  | nil =>
    cases (step_idle hport).symm.trans h
    exact .idle hport
  | cons e rest =>
    cases e with
    | strap level =>
      cases (step_strap hport).symm.trans h
      exact .strap level rest hport
    | hardReset =>
      cases (step_hardReset hport).symm.trans h
      exact .hardReset rest hport
    | command c =>
      cases hdecode : decodeAt s.atFrameStart c with
      | error e =>
        obtain ⟨code⟩ := e
        cases (step_rejected hport hdecode).symm.trans h
        exact .illegal c code rest hport hdecode
      | ok i =>
        have hexec := (step_command hport hdecode).symm.trans h
        obtain ⟨d, hcommand, hbyte⟩ | ⟨hcommand, hbyte⟩ := decodeAt_eq_ok hdecode
        · rw [exec_of_wireByte hbyte] at hexec
          exact .push d rest t (eq_of_decodeCommand_rxPush hcommand ▸ hport) hexec
        · exact .command c i rest t hport hcommand hbyte hexec

/-! ### The units under a command that gives RX no byte -/

section
variable {i : Instr} {s t : State}

/-- A command that gives RX no byte writes the RX registers only to clear them: RX_RESET, and RX_ACK in DONE
(R154, R155). -/
theorem exec_rx_cases (hbyte : i.wireByte = none) (h : exec i s = .next t) :
    t.rx = s.rx ∨ (t.rx = RxUnit.cleared ∧ (i = .rxReset ∨ s.rx.state = .done)) := by
  cases i with
  | nop | txReset => cases h; exact .inl rfl
  | rxReset => cases h; exact .inr ⟨rfl, .inl rfl⟩
  | rxAck =>
    by_cases hdone : s.rx.state = .done
    · cases (exec_rxAck_of_done hdone).symm.trans h
      exact .inr ⟨rfl, .inr hdone⟩
    · cases (exec_rxAck_of_not_done hdone).symm.trans h
      exact .inl rfl
  | txStart fin rsv opcode len key =>
    rw [exec, execTxStart] at h
    split at h <;> cases h <;> exact .inl rfl
  | txPush d =>
    rw [exec, execTxPush] at h
    split at h <;> cases h <;> exact .inl rfl
  | rdReg idx =>
    rw [exec, execRdReg] at h
    split at h <;> cases h <;> exact .inl rfl
  | reservedCode code rest => cases h; exact .inl rfl
  | _ => cases hbyte

/-- A refusal keeps an earlier cause (R210). -/
theorem refuseTx_keeps_err {c : TxCause} (herr : s.tx.err ≠ none) (h : refuseTx c s = .next t) :
    t.tx.err = s.tx.err := by
  cases refuseTx_eq_next.mp h
  exact if_neg herr

/-- Of the commands that give RX no byte only TX_RESET changes a recorded TX_ERR, and it clears TX (R119, R212). -/
theorem exec_txErr_cases (hbyte : i.wireByte = none) (herr : s.tx.err ≠ none) (h : exec i s = .next t) :
    t.tx.err = s.tx.err ∨ (t.tx = TxUnit.cleared ∧ i = .txReset) := by
  cases i with
  | nop | rxReset => cases h; exact .inl rfl
  | txReset => cases h; exact .inr ⟨rfl, rfl⟩
  | rxAck =>
    rw [exec, execRxAck] at h
    split at h <;> cases h <;> exact .inl rfl
  | txStart fin rsv opcode len key =>
    rw [exec, execTxStart] at h
    split at h
    · exact .inl (refuseTx_keeps_err herr h)
    · cases h; exact .inl rfl
  | txPush d =>
    rw [exec, execTxPush] at h
    split at h
    · exact .inl (refuseTx_keeps_err herr h)
    · cases h; exact .inl rfl
  | rdReg idx =>
    rw [exec, execRdReg] at h
    split at h <;> cases h <;> exact .inl rfl
  | reservedCode code rest => cases h; exact .inl rfl
  | _ => cases hbyte

/-- RX_PUSH keeps TX. -/
theorem rxPushByte_keeps_tx {d : Byte} (h : rxPushByte d s = .next t) : t.tx = s.tx := by
  obtain ⟨rx, rfl, -⟩ | ⟨-, rfl⟩ | ⟨-, rfl⟩ := rxPushByte_cases h <;> rfl

end

end Sys2Proof.Machine
end

section
/-! PROOFS. The error records are left by their clears only (spec 60_exceptions.md R208, R212). -/

namespace Sys2Proof.Machine

/-- Settles O26: in ERROR a byte is not consumed, and of the commands that write RX only RX_RESET takes effect. -/
theorem errorIsLeftOnlyByReset : Obligations.ErrorIsLeftOnlyByReset := by
  intro s t h herror
  cases stepOutcome h with
  | idle | illegal | strap => exact .inl rfl
  | hardReset rest hport => exact .inr ⟨rfl, rest, .inr hport⟩
  | push d rest _ hport hpush =>
    cases (exec_rxPush_of_done_or_error (s := s.setPort rest) d (.inr herror)).symm.trans hpush
    exact .inl rfl
  | command c i rest _ hport hdecode hbyte hexec =>
    obtain hkeeps | ⟨hcleared, rfl | hdone⟩ := exec_rx_cases (s := s.setPort rest) hbyte hexec
    · exact .inl hkeeps
    · exact .inr ⟨hcleared, rest, .inl (eq_of_decodeCommand_rxReset hdecode ▸ hport)⟩
    · cases herror.symm.trans hdone

/-- Settles O32: RX's bytes do not reach TX, and of the commands only TX_RESET writes over a recorded cause. -/
theorem txErrIsClearedOnlyByReset : Obligations.TxErrIsClearedOnlyByReset := by
  intro s t h herr
  cases stepOutcome h with
  | idle | illegal | strap => exact .inl rfl
  | hardReset rest hport => exact .inr ⟨rfl, rest, .inr hport⟩
  | push d rest _ hport hpush => exact .inl (congrArg TxUnit.err (rxPushByte_keeps_tx (s := s.setPort rest) hpush))
  | command c i rest _ hport hdecode hbyte hexec =>
    obtain hkeeps | ⟨hcleared, rfl⟩ := exec_txErr_cases (s := s.setPort rest) hbyte herr hexec
    · exact .inl hkeeps
    · exact .inr ⟨hcleared, rest, .inl (eq_of_decodeCommand_txReset hdecode ▸ hport)⟩

end Sys2Proof.Machine
end

section
/-! PROOFS. A ProtocolError is raised by RX_PUSH on a header byte (spec 60_exceptions.md R202, R204). -/

namespace Sys2Proof.Machine

/-- The registers `rx'` record a ProtocolError raised on the byte `d` in the registers `rx` (R205), before any payload
byte is counted. -/
structure RaisedOn (d : Byte) (rx rx' : RxUnit) : Prop where
  errByte_eq : rx'.errByte = d
  errPos_eq : rx'.errPos = rx.hpos
  errCause_ne_none : rx'.errCause ≠ none
  cnt_eq : rx'.cnt = rx.cnt

section
variable {r : Role} {rx : RxUnit} {d : Byte}

theorem RaisedOn.raise {c : ProtocolCause} {captured : RxUnit} (hcnt : captured.cnt = rx.cnt) :
    RaisedOn d rx (captured.raise c rx.hpos d) :=
  ⟨rfl, rfl, Option.some_ne_none c, hcnt⟩

/-! ### The arms of RX_PUSH that enter ERROR -/

theorem afterLen_ne_error (m : Bool) (len : Word64) : afterLen m len ≠ .error := by
  unfold afterLen
  split
  · nofun
  · split <;> nofun

theorem afterByte1_state_ne_error (rx : RxUnit) : (afterByte1 rx).state ≠ .error := by
  unfold afterByte1
  split
  · exact afterLen_ne_error _ _
  · nofun

/-- Byte 0 (R142). -/
theorem rxHdr0_raisedOn (herror : (rxHdr0 d rx).state = .error) : RaisedOn d rx (rxHdr0 d rx) := by
  rw [rxHdr0] at herror ⊢
  cases hcheck : byte0Check d with
  | some c => exact .raise rfl
  | none =>
    rw [hcheck] at herror
    cases herror

/-- Byte 1 (R144). -/
theorem rxHdr1_raisedOn (herror : (rxHdr1 r d rx).state = .error) : RaisedOn d rx (rxHdr1 r d rx) := by
  rw [rxHdr1] at herror ⊢
  cases hcheck : byte1Check r rx.opcode d with
  | some c => exact .raise rfl
  | none =>
    rw [hcheck] at herror
    exact absurd herror (afterByte1_state_ne_error _)

/-- An extended-length byte raises an error where it is the first of a 64-bit length (R147) or the last (R148). -/
theorem rxExtLen_raisedOn (hstate : rx.state = .extLen) (herror : (rxExtLen d rx).state = .error) :
    RaisedOn d rx (rxExtLen d rx) ∧ ((rx.extNeed = 8 ∧ rx.extIdx = 0) ∨ rx.extIdx + 1 = rx.extNeed) := by
  cases hmsb : lenMsbCheck rx.extNeed (rx.extIdx + 1) d with
  | true =>
    obtain ⟨hneed, hfirst, -⟩ := lenMsbCheck_iff.mp hmsb
    rw [rxExtLen_of_msb hmsb]
    exact ⟨.raise rfl, .inl ⟨hneed, hfirst⟩⟩
  | false =>
    by_cases hlast : rx.extIdx + 1 = rx.extNeed
    · cases hwide : lenNonminimalCheck rx.extNeed (rx.accumulated d).len with
      | true =>
        rw [rxExtLen_of_overWide hmsb hlast hwide]
        exact ⟨.raise rfl, .inr hlast⟩
      | false =>
        rw [rxExtLen_of_last hmsb hlast hwide] at herror
        exact absurd herror (afterLen_ne_error _ _)
    · rw [rxExtLen_of_more hmsb hlast] at herror
      cases hstate.symm.trans herror

/-- A key byte raises no error (R150). -/
theorem rxMaskKey_state_ne_error (hstate : rx.state = .maskKey) : (rxMaskKey d rx).state ≠ .error := by
  by_cases hlast : rx.keyIdx + 1 = 4
  · rw [rxMaskKey_of_last hlast]
    split <;> nofun
  · rw [rxMaskKey_of_more hlast, RxUnit.keyCaptured, hstate]
    nofun

/-- A payload byte raises no error (R151). -/
theorem rxPayload_state_ne_error (hstate : rx.state = .payload) : (rxPayload rx).state ≠ .error := by
  simp only [rxPayload, hstate]
  split <;> nofun

/-! ### The positions (R204) -/

theorem RxInv.hpos_cnt_of_hdr0 (hinv : RxInv r rx) (hstate : rx.state = .hdr0) : rx.hpos = 0 ∧ rx.cnt = 0 := by
  rw [(RxInv.hdr0_iff hstate).mp hinv]
  exact ⟨rfl, rfl⟩

theorem RxInv.hpos_cnt_of_hdr1 (hinv : RxInv r rx) (hstate : rx.state = .hdr1) : rx.hpos = 1 ∧ rx.cnt = 0 := by
  obtain ⟨hrx, -⟩ := (RxInv.hdr1_iff hstate).mp hinv
  rw [hrx]
  exact ⟨rfl, rfl⟩

/-- The first extended byte is at position 2, and the last at 3 or 9 by the length's form. -/
theorem RxInv.hpos_cnt_of_extLen (hinv : RxInv r rx) (hstate : rx.state = .extLen)
    (hbyte : (rx.extNeed = 8 ∧ rx.extIdx = 0) ∨ rx.extIdx + 1 = rx.extNeed) :
    rx.hpos.toNat ∈ [2, 3, 9] ∧ rx.cnt = 0 := by
  obtain ⟨-, ⟨hkey, -, hcnt⟩, -, hpartial, hpos⟩ := (RxInv.extLen_iff hstate).mp hinv
  have hkeyIdx : rx.keyIdx.toNat = 0 := by rw [hkey]; rfl
  rw [HposCounts, hkeyIdx] at hpos
  refine ⟨?_, hcnt⟩
  obtain ⟨-, hfirst⟩ | hlast := hbyte
  · simp [hpos, hfirst]
  · have hidx : rx.extIdx.toNat + 1 = rx.extNeed.toNat := by
      rw [← hlast]
      exact (LengthPartial.accumulated_extIdx_toNat hpartial 0).symm
    obtain ⟨hneed, -⟩ | ⟨hneed, -⟩ := hpartial
    · have hone : rx.extIdx.toNat = 1 := by simpa [hneed] using hidx
      simp [hpos, hone]
    · have hseven : rx.extIdx.toNat = 7 := by simpa [hneed] using hidx
      simp [hpos, hseven]

/-- A byte that takes RX to ERROR is a header byte, at one of five positions. -/
theorem RxInv.raisedOn_header {s t : State} (hinv : RxInv s.role s.rx) (hpush : rxPushByte d s = .next t)
    (hstart : s.rx.state ≠ .error) (herror : t.rx.state = .error) :
    (s.rx.state = .hdr0 ∨ s.rx.state = .hdr1 ∨ s.rx.state = .extLen) ∧ RaisedOn d s.rx t.rx ∧
      s.rx.hpos.toNat ∈ [0, 1, 2, 3, 9] ∧ s.rx.cnt = 0 ∧ t = (s.setRx t.rx).respond true 0 := by
  obtain ⟨rx, rfl, ⟨hstate, rfl⟩ | ⟨hstate, rfl⟩ | ⟨hstate, rfl⟩ | ⟨hstate, rfl⟩⟩ | ⟨hstate, rfl⟩ |
    ⟨hstate, rfl⟩ := rxPushByte_cases hpush
  · obtain ⟨hpos, hcnt⟩ := hinv.hpos_cnt_of_hdr0 hstate
    exact ⟨.inl hstate, rxHdr0_raisedOn herror, by simp [hpos], hcnt, rfl⟩
  · obtain ⟨hpos, hcnt⟩ := hinv.hpos_cnt_of_hdr1 hstate
    exact ⟨.inr (.inl hstate), rxHdr1_raisedOn herror, by simp [hpos], hcnt, rfl⟩
  · obtain ⟨hraised, hbyte⟩ := rxExtLen_raisedOn hstate herror
    obtain ⟨hpos, hcnt⟩ := hinv.hpos_cnt_of_extLen hstate hbyte
    exact ⟨.inr (.inr hstate), hraised, List.mem_cons_of_mem _ (List.mem_cons_of_mem _ hpos), hcnt, rfl⟩
  · exact absurd herror (rxMaskKey_state_ne_error hstate)
  · exact absurd herror (rxPayload_state_ne_error hstate)
  · exact absurd herror hstart

end

/-- Settles O25: no event but an RX_PUSH enters ERROR, and its byte is then a header byte. -/
theorem protocolErrorIsRaisedOnAHeaderByte : Obligations.ProtocolErrorIsRaisedOnAHeaderByte := by
  intro s t hinv h hstart herror
  cases stepOutcome h with
  | idle | illegal | strap => exact absurd herror hstart
  | hardReset => cases herror
  | command c i rest _ hport hdecode hbyte hexec =>
    obtain hkeeps | ⟨hcleared, -⟩ := exec_rx_cases (s := s.setPort rest) hbyte hexec
    · rw [hkeeps] at herror
      exact absurd herror hstart
    · rw [hcleared] at herror
      cases herror
  | push d rest _ hport hpush =>
    obtain ⟨hheader, hraised, hpos, hcnt, ht⟩ :=
      RxInv.raisedOn_header (s := s.setPort rest) hinv.rx hpush hstart herror
    rw [ht]
    exact ⟨⟨d, rest, hport, hraised.errByte_eq⟩, hheader, hraised.errPos_eq, hraised.errPos_eq ▸ hpos,
      hraised.errCause_ne_none, hraised.cnt_eq.trans hcnt, rfl, rfl, rfl, rfl, rfl⟩

end Sys2Proof.Machine
end

section
/-! PROOFS. What a hardware reset leaves (spec 70_reset_and_hazards.md R231). -/

namespace Sys2Proof.Machine

/-- Settles O11: the units and CMD_ERR are left cleared, so the register map reads as at power-on; `rxOut` and `txOut`
are not written. -/
theorem hardwareResetEffect : Obligations.HardwareResetEffect := by
  refine ⟨fun s rest hport => ?reset, fun _ => ⟨rfl, rfl⟩⟩
  case reset =>
    have hcfg : Reg.value .cfg (s.setPort rest).hardReset = if s.strap = .server then 1 else 0 := Reg.value_cfg _
    exact ⟨_, step_hardReset hport, rfl, rfl, rfl, rfl, rfl, hcfg, Reg.value_rxStatus_of_cleared rfl,
      Reg.value_of_cleared rfl rfl rfl⟩

end Sys2Proof.Machine
end

section
/-! PROOFS. Encoder and decoder of both encodings are inverse (spec 30_encoding.md R70, R81, R82), and they read the
rows of spec/opcode_table.json. -/

namespace Sys2Proof

/-! ### The encoder's words (R82) -/

/-- The bits outside CODE and `C[15:8]` are 0 in a command word with that byte as its only field. -/
theorem encodeByteCommand_and_reserved (code : BitVec 4) (d : Byte) :
    encodeByteCommand code d &&& 0xFFFFFFFFFFFFFFFFFFFFFFFFFFFF00F0#128 = 0 := by
  have h : 0xFFFFFFFFFFFFFFFFFFFFFFFFFFFF00F0#128 = BitVec.allOnes 112 ++ 0#8 ++ 0xF#4 ++ 0#4 := by decide
  rw [h, encodeByteCommand]
  iterate 3 rw [BitVec.and_append]
  rw [BitVec.and_zero, BitVec.and_zero]
  decide

section
variable (fin : Bool) (rsv : BitVec 3) (op : BitVec 4) (len : Word64) (key : MaskKey)

/-- `C[31:12]` is 0 in TX_START's word. -/
theorem encodeTxStart_and_reserved :
    encodeTxStart fin rsv op len key &&& 0x000000000000000000000000FFFFF000#128 = 0 := by
  have h : 0x000000000000000000000000FFFFF000#128 = 0#64 ++ 0#32 ++ BitVec.allOnes 20 ++ 0#4 ++ 0#3 ++ 0#1 ++ 0#4 := by
    decide
  rw [h, encodeTxStart]
  iterate 6 rw [BitVec.and_append]
  iterate 6 rw [BitVec.and_zero]
  decide

@[simp] theorem encodeTxStart_code : (encodeTxStart fin rsv op len key).code = 4 := by
  simp [encodeTxStart, Command.code, BitVec.extractLsb'_append_eq_ite, -Nat.reduceAdd]

@[simp] theorem encodeTxStart_fin : (encodeTxStart fin rsv op len key).fin = fin := by
  rw [encodeTxStart, Command.fin, BitVec.getLsbD_append]
  simp [BitVec.getElem_append, -Nat.reduceAdd]

@[simp] theorem encodeTxStart_rsv : (encodeTxStart fin rsv op len key).rsv = rsv := by
  simp [encodeTxStart, Command.rsv, BitVec.extractLsb'_append_eq_ite, -Nat.reduceAdd]

@[simp] theorem encodeTxStart_opcode : (encodeTxStart fin rsv op len key).opcode = op := by
  simp [encodeTxStart, Command.opcode, BitVec.extractLsb'_append_eq_ite, -Nat.reduceAdd]

@[simp] theorem encodeTxStart_len : (encodeTxStart fin rsv op len key).len = len := by
  simp [encodeTxStart, Command.len, BitVec.extractLsb'_append_eq_ite, -Nat.reduceAdd]

@[simp] theorem encodeTxStart_key : (encodeTxStart fin rsv op len key).key = key := by
  obtain ⟨k0, k1, k2, k3⟩ := key
  simp [encodeTxStart, Command.key, MaskKey.pack, BitVec.extractLsb'_append_eq_ite, -Nat.reduceAdd]

end

/-! ### Decoding what the encoder wrote -/

/-- A word whose reserved bits are 0 is read by its fields (R82). -/
theorem decodeCommand_of_and_reserved {c : Command} (h : c &&& reservedBits c.code = 0) :
    decodeCommand c = .ok (commandOf c) := by
  simp [decodeCommand, h]

/-- A word of either encoding gives back the instruction it was made from (R70, R81, R82). -/
theorem decode_encode {i : Instr} (hi : i.wellFormed = true) : decode (encode i) = some i := by
  have command {c : Command} {code : BitVec 4} {j : Instr} (hcode : c.code = code)
      (hzero : c &&& reservedBits code = 0) (hj : commandOf c = j) : decode (.command c) = some j := by
    rw [decode, decodeCommand_of_and_reserved (hcode ▸ hzero), hj]
    rfl
  cases i with
  | nop | rxAck | rxReset | txReset => decide
  | rxPush d => exact command (encodeByteCommand_code 1 d) (encodeByteCommand_and_reserved 1 d) (by simp [commandOf])
  | txPush d => exact command (encodeByteCommand_code 5 d) (encodeByteCommand_and_reserved 5 d) (by simp [commandOf])
  | rdReg d => exact command (encodeByteCommand_code 7 d) (encodeByteCommand_and_reserved 7 d) (by simp [commandOf])
  | txStart fin rsv op len key =>
    exact command (encodeTxStart_code ..) (encodeTxStart_and_reserved fin rsv op len key) (by simp [commandOf])
  | reservedCode code rest =>
    have hcode : 8 ≤ (rest ++ code : Command).toNat % 16 := by
      rw [← Command.code_toNat, append_code]
      exact BitVec.le_def.mp (of_decide_eq_true hi)
    rw [encode, decode, decodeCommand_of_reservedCode hcode, append_code, append_aboveCode]
    rfl
  | close | ping | pong => decide
  | cont fin | text fin | bin fin => revert fin; decide
  | reservedOp3 fin rsv | reservedOp4 fin rsv | reservedOp5 fin rsv | reservedOp6 fin rsv | reservedOp7 fin rsv
  | reservedOpB fin rsv | reservedOpC fin rsv | reservedOpD fin rsv | reservedOpE fin rsv | reservedOpF fin rsv =>
    clear hi
    revert fin rsv
    decide

/-- Settles O1: a command word is read back field by field, and a byte 0 has few fields. -/
theorem decodeOfEncode : Obligations.DecodeOfEncode := fun _ => decode_encode

/-! ### Encoding what the decoders read -/

/-- A word whose bits `C[31:12]` are 0 and whose CODE is 4 is TX_START's word of its own fields (R82). -/
theorem eq_encodeTxStart {c : Command} (hcode : c.code = 4) (h : ∀ j, 12 ≤ j ∧ j < 32 → c.getLsbD j = false) :
    c = encodeTxStart c.fin c.rsv c.opcode c.len c.key := by
  refine BitVec.eq_of_getLsbD_eq fun j hj => ?_
  have hlow : ∀ k, k < 4 → c.getLsbD k = (4#4).getLsbD k := by
    intro k hk
    rw [show 4#4 = c.code from hcode.symm, Command.code, BitVec.getLsbD_extractLsb']
    simp [hk]
  simp only [encodeTxStart, MaskKey.pack, Command.fin, Command.rsv, Command.opcode, Command.len, Command.key,
    BitVec.getLsbD_append, BitVec.getLsbD_extractLsb', BitVec.getLsbD_ofBool]
  grind

/-- A command word is the encoder's for the command it spells: CODE names it, and no reserved bit is 1 (R81, R82). -/
theorem encode_of_decodeCommand {c : Command} {i : Instr} (h : decodeCommand c = .ok i) :
    i.wellFormed = true ∧ encode i = .command c := by
  obtain ⟨hcommand, hreserved⟩ := commandOf_of_decodeCommand h
  rw [← c.code_toNat] at hreserved
  have bare {k : Nat} (hcode : c.code.toNat = k) (hk : k ∈ [0, 2, 3, 6]) :
      encodeBareCommand (BitVec.ofNat 4 k) = c := by
    rw [← hcode, BitVec.ofNat_toNat, BitVec.setWidth_eq]
    exact (eq_of_decodeCommand_bare h rfl (hcode ▸ hk)).symm
  have byte {k : Nat} (hcode : c.code.toNat = k) (hk : k ∈ [1, 5, 7]) :
      encodeByteCommand (BitVec.ofNat 4 k) c.operandByte = c := by
    have hdefined : k < 8 := by
      simp only [List.mem_cons, List.not_mem_nil, or_false] at hk
      omega
    rw [hcode] at hreserved
    rw [← hcode, BitVec.ofNat_toNat, BitVec.setWidth_eq]
    exact (eq_encodeByteCommand fun j hj => hreserved hdefined j (.inr (.inl ⟨hk, hj⟩))).symm
  unfold commandOf at hcommand
  split at hcommand <;> subst hcommand
  case h_1 hcode | h_3 hcode | h_4 hcode | h_7 hcode => exact ⟨rfl, congrArg _ (bare hcode (by decide))⟩
  case h_2 hcode | h_6 hcode | h_8 hcode => exact ⟨rfl, congrArg _ (byte hcode (by decide))⟩
  case h_5 hcode =>
    rw [hcode] at hreserved
    exact ⟨rfl, congrArg _ (eq_encodeTxStart (BitVec.eq_of_toNat_eq hcode)
      fun j hj => hreserved (by decide) j (.inr (.inr ⟨rfl, hj⟩))).symm⟩
  case h_9 =>
    have hcode : 8 ≤ c.code.toNat := by grind
    exact ⟨decide_eq_true (BitVec.le_def.mpr hcode), congrArg _ (aboveCode_append_code c)⟩

/-- An instruction of the second encoding is encoded by the byte it gives RX (R70). -/
theorem encode_of_wireByte {i : Instr} {b : Byte} (h : i.wireByte = some b) (hpush : i ≠ .rxPush b) :
    i.wellFormed = true ∧ encode i = .frameByte0 b := by
  cases i with
  | rxPush d => cases h; exact absurd rfl hpush
  | nop | rxAck | rxReset | txStart | txPush | txReset | rdReg | reservedCode => cases h
  | _ => cases h; exact ⟨rfl, rfl⟩

/-- No byte 0 spells an RX_PUSH. -/
theorem decodeByte0_ne_rxPush {b d : Byte} : decodeByte0 b ≠ .ok (.rxPush d) := by
  intro h
  unfold decodeByte0 at h
  split at h
  case h_1 | h_2 | h_3 => cases Machine.eq_of_dataFrame h
  case h_9 | h_10 | h_11 => cases Machine.eq_of_controlFrame h
  all_goals cases h

/-- The two decoders, as the one on encoded words reads them. -/
theorem decode_command_eq_some {c : Command} {i : Instr} :
    decode (.command c) = some i ↔ decodeCommand c = .ok i := by
  rw [decode]
  cases decodeCommand c <;> simp [Except.toOption]

theorem decode_frameByte0_eq_some {b : Byte} {i : Instr} :
    decode (.frameByte0 b) = some i ↔ decodeByte0 b = .ok i := by
  rw [decode]
  cases decodeByte0 b <;> simp [Except.toOption]

/-- Words that decode are the encoder's for what they decode to. -/
theorem encode_of_decode {e : Encoded} {i : Instr} (h : decode e = some i) : i.wellFormed = true ∧ encode i = e := by
  cases e with
  | command c => exact encode_of_decodeCommand (decode_command_eq_some.mp h)
  | frameByte0 b =>
    have hbyte := decode_frameByte0_eq_some.mp h
    refine encode_of_wireByte (wireByte_of_decodeByte0 hbyte) ?_
    rintro rfl
    exact decodeByte0_ne_rxPush hbyte

/-- Settles O2: by the CODE of a command word, and by the byte that an instruction of the second encoding gives RX. -/
theorem encodeOfDecode : Obligations.EncodeOfDecode := fun _ _ => encode_of_decode

/-! ### The opcode table -/

/-- The words of a well-formed instruction match its row: the law of each instruction. -/
theorem row_matches_encode {i : Instr} (hi : i.wellFormed = true) : i.row.matches (encode i) = true := by
  cases i with
  | nop => exact Laws.TableRow.nop hi
  | rxPush d => exact Laws.TableRow.rxPush d hi
  | rxAck => exact Laws.TableRow.rxAck hi
  | rxReset => exact Laws.TableRow.rxReset hi
  | txStart fin rsv op len key => exact Laws.TableRow.txStart fin rsv op len key hi
  | txPush d => exact Laws.TableRow.txPush d hi
  | txReset => exact Laws.TableRow.txReset hi
  | rdReg idx => exact Laws.TableRow.rdReg idx hi
  | reservedCode code rest => exact Laws.TableRow.reservedCode code rest hi
  | cont fin => exact Laws.TableRow.cont fin hi
  | text fin => exact Laws.TableRow.text fin hi
  | bin fin => exact Laws.TableRow.bin fin hi
  | close => exact Laws.TableRow.close hi
  | ping => exact Laws.TableRow.ping hi
  | pong => exact Laws.TableRow.pong hi
  | reservedOp3 fin rsv => exact Laws.TableRow.reservedOp3 fin rsv hi
  | reservedOp4 fin rsv => exact Laws.TableRow.reservedOp4 fin rsv hi
  | reservedOp5 fin rsv => exact Laws.TableRow.reservedOp5 fin rsv hi
  | reservedOp6 fin rsv => exact Laws.TableRow.reservedOp6 fin rsv hi
  | reservedOp7 fin rsv => exact Laws.TableRow.reservedOp7 fin rsv hi
  | reservedOpB fin rsv => exact Laws.TableRow.reservedOpB fin rsv hi
  | reservedOpC fin rsv => exact Laws.TableRow.reservedOpC fin rsv hi
  | reservedOpD fin rsv => exact Laws.TableRow.reservedOpD fin rsv hi
  | reservedOpE fin rsv => exact Laws.TableRow.reservedOpE fin rsv hi
  | reservedOpF fin rsv => exact Laws.TableRow.reservedOpF fin rsv hi

/-- A word with the fixed bits `p` of a row whose mask `m` covers CODE and the bits reserved for it has that CODE and
decodes. -/
theorem decodeCommand_of_row {c m p : Command} (h : c &&& m = p) (hcode : m.code = 0xF)
    (hmask : m &&& reservedBits p.code = reservedBits p.code) (hzero : p &&& reservedBits p.code = 0) :
    c.code = p.code ∧ decodeCommand c = .ok (commandOf c) := by
  have hsame : c.code = p.code := by
    have hfull : m.code = BitVec.allOnes 4 := hcode
    rw [← h, Command.code, Command.code, BitVec.extractLsb'_and]
    rw [Command.code] at hfull
    rw [hfull, BitVec.and_allOnes]
  refine ⟨hsame, decodeCommand_of_and_reserved ?_⟩
  rw [hsame, ← hmask, ← BitVec.and_assoc, h, hzero]

/-- A word that matches a command's row decodes to an instruction of that row. -/
theorem decodeCommand_of_row_matches {c : Command} {j : Instr} (h : j.row.matches (.command c) = true) :
    ∃ i, decodeCommand c = .ok i ∧ i.row = j.row := by
  have row {m p : Command} (hrow : j.row = ⟨j.row.mnemonic, .command m, .command p⟩) (hcode : m.code = 0xF)
      (hmask : m &&& reservedBits p.code = reservedBits p.code) (hzero : p &&& reservedBits p.code = 0)
      (hj : ∀ d : Command, d.code = p.code → (commandOf d).row = j.row) :
      ∃ i, decodeCommand c = .ok i ∧ i.row = j.row := by
    have hbits : c &&& m = p := by
      rw [hrow] at h
      exact beq_iff_eq.mp h
    obtain ⟨hsame, hdecode⟩ := decodeCommand_of_row hbits hcode hmask hzero
    exact ⟨_, hdecode, hj c hsame⟩
  cases j with
  | nop | rxPush | rxAck | rxReset | txStart | txPush | txReset | rdReg =>
    refine row rfl (by decide) (by decide) (by decide) fun d hd => ?_
    rw [commandOf, hd]
    rfl
  | reservedCode code rest =>
    have hbit : c &&& 8#128 = 8#128 := beq_iff_eq.mp h
    have hcode : 8 ≤ c.toNat % 16 := by
      rw [← c.code_toNat]
      have hlow : c.code &&& 8#4 = 8#4 := by
        have := congrArg Command.code hbit
        rwa [Command.code, BitVec.extractLsb'_and] at this
      generalize c.code = k at hlow
      revert k
      decide
    exact ⟨_, decodeCommand_of_reservedCode hcode, rfl⟩
  | _ => cases h

/-- A row of a data opcode leaves FIN free (R156 to R158). -/
theorem byte0_of_dataRow (op : BitVec 4) {b : Byte} (h : (b &&& 0x7F == byte0 false 0 op) = true) :
    byte0 b.fin 0 op = b := by
  revert b op
  decide

/-- A row of a reserved opcode leaves FIN and RSV free (R162). -/
theorem byte0_of_reservedRow (op : BitVec 4) {b : Byte} (h : (b &&& 0x0F == byte0 false 0 op) = true) :
    byte0 b.fin b.rsv op = b := by
  revert b op
  decide

/-- A row of a control opcode leaves nothing free (R159 to R161). -/
theorem byte0_of_controlRow (op : BitVec 4) {b : Byte} (h : (b &&& 0xFF == byte0 true 0 op) = true) :
    byte0 true 0 op = b := by
  have hmask : b &&& BitVec.allOnes 8 = byte0 true 0 op := beq_iff_eq.mp h
  rw [← hmask, BitVec.and_allOnes]

/-- A byte that matches the row of an instruction of the second encoding is the byte of an instruction of that row. -/
theorem encode_of_row_matches {b : Byte} {j : Instr} (h : j.row.matches (.frameByte0 b) = true) :
    ∃ i : Instr, i.wellFormed = true ∧ encode i = .frameByte0 b ∧ i.row = j.row := by
  have is {i : Instr} {c : Byte} (hi : i.wellFormed = true) (hc : encode i = .frameByte0 c) (hb : c = b)
      (hrow : i.row = j.row) : ∃ i : Instr, i.wellFormed = true ∧ encode i = .frameByte0 b ∧ i.row = j.row :=
    ⟨i, hi, hb ▸ hc, hrow⟩
  cases j with
  | cont => exact is (i := .cont b.fin) rfl rfl (byte0_of_dataRow 0x0 h) rfl
  | text => exact is (i := .text b.fin) rfl rfl (byte0_of_dataRow 0x1 h) rfl
  | bin => exact is (i := .bin b.fin) rfl rfl (byte0_of_dataRow 0x2 h) rfl
  | close => exact is (i := .close) rfl rfl (byte0_of_controlRow 0x8 h) rfl
  | ping => exact is (i := .ping) rfl rfl (byte0_of_controlRow 0x9 h) rfl
  | pong => exact is (i := .pong) rfl rfl (byte0_of_controlRow 0xA h) rfl
  | reservedOp3 => exact is (i := .reservedOp3 b.fin b.rsv) rfl rfl (byte0_of_reservedRow 0x3 h) rfl
  | reservedOp4 => exact is (i := .reservedOp4 b.fin b.rsv) rfl rfl (byte0_of_reservedRow 0x4 h) rfl
  | reservedOp5 => exact is (i := .reservedOp5 b.fin b.rsv) rfl rfl (byte0_of_reservedRow 0x5 h) rfl
  | reservedOp6 => exact is (i := .reservedOp6 b.fin b.rsv) rfl rfl (byte0_of_reservedRow 0x6 h) rfl
  | reservedOp7 => exact is (i := .reservedOp7 b.fin b.rsv) rfl rfl (byte0_of_reservedRow 0x7 h) rfl
  | reservedOpB => exact is (i := .reservedOpB b.fin b.rsv) rfl rfl (byte0_of_reservedRow 0xB h) rfl
  | reservedOpC => exact is (i := .reservedOpC b.fin b.rsv) rfl rfl (byte0_of_reservedRow 0xC h) rfl
  | reservedOpD => exact is (i := .reservedOpD b.fin b.rsv) rfl rfl (byte0_of_reservedRow 0xD h) rfl
  | reservedOpE => exact is (i := .reservedOpE b.fin b.rsv) rfl rfl (byte0_of_reservedRow 0xE h) rfl
  | reservedOpF => exact is (i := .reservedOpF b.fin b.rsv) rfl rfl (byte0_of_reservedRow 0xF h) rfl
  | _ => cases h

/-- Settles O3: what decodes is encoded by the same words, which match the row; and a row's fixed bits leave the decoder
one answer. -/
theorem decodersFollowTheOpcodeTable : Obligations.DecodersFollowTheOpcodeTable := by
  refine ⟨fun e i h => ?_, fun e j h => ?_⟩
  · obtain ⟨hi, rfl⟩ := encode_of_decode h
    exact row_matches_encode hi
  · cases e with
    | command c =>
      obtain ⟨i, hdecode, hrow⟩ := decodeCommand_of_row_matches h
      exact ⟨i, decode_command_eq_some.mpr hdecode, hrow⟩
    | frameByte0 b =>
      obtain ⟨i, hi, hencode, hrow⟩ := encode_of_row_matches h
      exact ⟨i, hencode ▸ decode_encode hi, hrow⟩

/-- Settles O4: eleven closed words, evaluated. -/
theorem specWordsDecode : Obligations.SpecWordsDecode := by
  unfold Obligations.SpecWordsDecode
  decide

end Sys2Proof
end

section
/-! PROOFS. The step performs the words that the host presents (spec 20_memory.md R65, 42_decoder.md R140), and always
completes (R164, 70_reset_and_hazards.md R251). -/

namespace Sys2Proof.Machine

/-! ### The presented words -/

/-- Settles O6: both are the RX_PUSH of the byte. -/
theorem frameByte0IsItsRxPush : Obligations.FrameByte0IsItsRxPush := fun _ _ h s =>
  exec_of_wireByte (wireByte_of_decodeByte0 (decode_frameByte0_eq_some.mp h)) s

/-- Where the command decoder reads an instruction, the block has one to perform (R140). -/
theorem exists_decodeAt_eq_ok {c : Command} {i : Instr} (h : decodeCommand c = .ok i) (start : Bool) :
    ∃ j, decodeAt start c = .ok j := by
  by_cases hpush : ∃ d, i = .rxPush d
  · obtain ⟨d, rfl⟩ := hpush
    obtain ⟨j, hj, -⟩ := decodeAt_legal h trivial start
    exact ⟨j, hj⟩
  · exact ⟨i, decodeAt_of_not_rxPush h (not_exists.mp hpush) start⟩

/-- The block performs what the command decoder reads, or in its place the byte 0 that came with an RX_PUSH, which has
the same effect (R140). -/
theorem step_of_decodeCommand {s : State} {c : Command} {rest : List HostEvent} {i : Instr}
    (hport : s.port = .command c :: rest) (h : decodeCommand c = .ok i) : step s = exec i (s.setPort rest) := by
  obtain ⟨j, hj⟩ := exists_decodeAt_eq_ok h s.atFrameStart
  rw [step_command hport hj]
  obtain ⟨d, hcommand, hbyte⟩ | ⟨hcommand, -⟩ := decodeAt_eq_ok hj
  · cases h.symm.trans hcommand
    exact exec_of_wireByte hbyte _
  · cases h.symm.trans hcommand
    rfl

/-- The word by which encoded words are presented spells what they decode to, or for a byte 0 its RX_PUSH. -/
theorem step_of_presented {s : State} {e : Encoded} {rest : List HostEvent} {i : Instr}
    (hport : s.port = .command e.presented :: rest) (h : decode e = some i) : step s = exec i (s.setPort rest) := by
  cases e with
  | command c => exact step_of_decodeCommand hport (decode_command_eq_some.mp h)
  | frameByte0 b =>
    have hpush : decodeCommand (encodeByteCommand 0x1 b) = .ok (.rxPush b) :=
      decode_command_eq_some.mp (decode_encode (i := .rxPush b) rfl)
    rw [step_of_decodeCommand hport hpush]
    exact (frameByte0IsItsRxPush b i h _).symm

/-- Settles O5: the presented words decode to the instruction they encode. -/
theorem stepRunsThePresentedInstruction : Obligations.StepRunsThePresentedInstruction := fun _ _ _ hi hport _ =>
  step_of_presented hport (decode_encode hi)

/-- The step after encoded words are presented performs them, from a frame's start where they are a byte 0. -/
theorem step_present {e : Encoded} {i : Instr} (h : decode e = some i) (s : State) :
    step (s.present e) = exec i (if e.isFrameByte0 && !s.atFrameStart then s.clearRx else s) := by
  rw [step_of_presented (s := s.present e) rfl h]
  rw [State.present]
  split <;> rfl

/-- Settles O7: RX is cleared exactly when a byte 0 is presented outside HDR0. -/
theorem fetchWordIsPerformedNext : Obligations.FetchWordIsPerformedNext := by
  intro s nbits w i h
  have hstep : step (s.withFetchWord nbits w) = _ := step_present h s
  have hstart : s.atFrameStart = true ↔ s.rx.state = .hdr0 := decide_eq_true_iff
  rw [hstep]
  refine ⟨fun hstay => ?_, fun hframe haway => ?_⟩
  · rw [if_neg]
    obtain hstate | hcommand := hstay
    · simp [hstart.mpr hstate]
    · simp [hcommand]
  · have haway : s.atFrameStart = false := Bool.eq_false_iff.mpr (mt hstart.mp haway)
    rw [hframe, haway]
    rfl

/-! ### Every step completes -/

/-- Every instruction answers a next state: a legal one keeps CMD_ERR, and another raises IllegalCommand. -/
theorem exec_next (i : Instr) (s : State) : ∃ t, exec i s = .next t := by
  by_cases hi : Legal i
  · obtain ⟨t, ht, -⟩ := exec_keeps_cmdErr hi s
    exact ⟨t, ht⟩
  · cases i with
    | reservedCode code rest => exact ⟨_, rfl⟩
    | rdReg idx =>
      rw [exec, execRdReg, not_not.mp hi]
      exact ⟨_, rfl⟩
    | _ => exact absurd trivial hi

/-- Settles O8: by the host's next event. -/
theorem everyStepCompletes : Obligations.EveryStepCompletes := by
  intro s
  cases hport : s.port with
  | nil => exact ⟨_, step_idle hport⟩
  | cons e rest =>
    cases e with
    | strap level => exact ⟨_, step_strap hport⟩
    | hardReset => exact ⟨_, step_hardReset hport⟩
    | command c =>
      cases hdecode : decodeAt s.atFrameStart c with
      | ok i =>
        rw [step_command hport hdecode]
        exact exec_next i _
      | error e => exact ⟨_, step_rejected hport hdecode⟩

/-- Settles O9: one rule for each event. -/
theorem eventsOtherThanCommands : Obligations.EventsOtherThanCommands := fun _ _ =>
  ⟨step_idle, fun _ => step_strap, step_hardReset⟩

/-- Settles O33: NOP is `accept`. -/
theorem nopEffect : Obligations.NopEffect := fun _ => rfl

end Sys2Proof.Machine
end

section
/-! PROOFS. The instructions of the second encoding in HDR0 (spec 42_decoder.md R156 to R162): byte 0 of a frame is
taken, or raises a ProtocolError. -/

namespace Sys2Proof.Machine

section
variable {i : Instr} {fin : Bool} {rsv : BitVec 3} {op : BitVec 4} {s : State}

/-- A byte 0 that passes its checks is captured, and byte 1 follows (R141). -/
theorem exec_byte0_taken (hbyte : i.wireByte = some (byte0 fin 0 op)) (hdefined : definedOpcode op = true)
    (hfinal : isControl op = true → fin = true) (hstate : s.rx.state = .hdr0) :
    exec i s = .next
      { s with
        rx := { s.rx with
          b0 := BitVec.ofNat 8 (fin.toNat * 128 + op.toNat), fin := fin, rsv := 0, opcode := op, hpos := 1,
          state := .hdr1 }
        responses := s.responses ++ [⟨true, 0⟩] } := by
  have hcheck : byte0Check (byte0 fin 0 op) = none :=
    byte0Check_eq_none_iff.mpr ⟨byte0_rsv .., by simpa using hdefined, by simpa using hfinal⟩
  have hpush := exec_rxPush_of_hdr0 (byte0 fin 0 op) hstate
  rw [rxHdr0, hcheck, byte0_fin, byte0_rsv, byte0_opcode] at hpush
  rw [exec_of_wireByte hbyte, ← execRxPush]
  refine hpush.trans ?_
  rw [byte0_eq_ofNat]
  rfl

/-- A byte 0 with a reserved opcode raises an error, and RSV is looked at before the opcode (R142, R203). -/
theorem exec_byte0_reserved (hbyte : i.wireByte = some (byte0 fin rsv op)) (hreserved : definedOpcode op = false)
    (hstate : s.rx.state = .hdr0) :
    exec i s = .next
      { s with
        rx := { s.rx with
          b0 := BitVec.ofNat 8 (fin.toNat * 128 + rsv.toNat * 16 + op.toNat), fin := fin, rsv := rsv, opcode := op,
          hpos := 1, state := .error, errCause := some (if rsv = 0 then .opcodeReserved else .rsvNonzero),
          errPos := s.rx.hpos, errByte := BitVec.ofNat 8 (fin.toNat * 128 + rsv.toNat * 16 + op.toNat) }
        responses := s.responses ++ [⟨true, 0⟩] } := by
  have hcheck : byte0Check (byte0 fin rsv op) = some (if rsv = 0 then .opcodeReserved else .rsvNonzero) := by
    rw [byte0Check, byte0_rsv, byte0_opcode, hreserved]
    by_cases hrsv : rsv = 0
    · rw [if_neg (not_not.mpr hrsv), if_pos hrsv]
      rfl
    · rw [if_pos hrsv, if_neg hrsv]
  have hpush := exec_rxPush_of_hdr0 (byte0 fin rsv op) hstate
  rw [rxHdr0, hcheck, byte0_fin, byte0_rsv, byte0_opcode] at hpush
  rw [exec_of_wireByte hbyte, ← byte0_eq_ofNat]
  exact hpush

end

/-- Settles O14: a data opcode is defined and is no control opcode. -/
theorem dataFrameByteZero : Obligations.DataFrameByteZero := fun _ _ hstate =>
  ⟨exec_byte0_taken rfl rfl nofun hstate, exec_byte0_taken rfl rfl nofun hstate,
    exec_byte0_taken rfl rfl nofun hstate⟩

/-- Settles O15: a control opcode is defined, and FIN is 1. -/
theorem controlFrameByteZero : Obligations.ControlFrameByteZero := fun _ hstate =>
  ⟨exec_byte0_taken rfl rfl (fun _ => rfl) hstate, exec_byte0_taken rfl rfl (fun _ => rfl) hstate,
    exec_byte0_taken rfl rfl (fun _ => rfl) hstate⟩

/-- Settles O16: the ten opcodes are not defined. -/
theorem reservedOpcodeByteZero : Obligations.ReservedOpcodeByteZero := by
  intro fin rsv s hstate
  refine ⟨?_, ?_, ?_, ?_, ?_, ?_, ?_, ?_, ?_, ?_⟩ <;> exact exec_byte0_reserved rfl rfl hstate

end Sys2Proof.Machine
end

section
/-! PROOFS. What a command that gives RX no byte can do (spec 41_encoder.md, 43_register_access.md, 42_decoder.md R154,
R155), and what no step changes: ROLE (10_state.md R21), a recorded CMD_ERR (R30), the bytes emitted (R31), and more
than one error record (60_exceptions.md R200, R217). -/

namespace Sys2Proof.Machine

/-- The illegal commands that decode, with the CODE and the reason recorded for them (R181, R183). -/
inductive RaisesIllegal : Instr → BitVec 4 → IllegalReason → Prop
  | reservedCode (code : BitVec 4) (rest : BitVec 124) : RaisesIllegal (.reservedCode code rest) code .reservedCode
  | unmappedIndex (idx : Byte) : RaisesIllegal (.rdReg idx) 0x7 .unmappedIndex

/-- The commands that TX can refuse (R112, R118). -/
inductive TxRefusable : Instr → Prop
  | txStart (fin : Bool) (rsv : BitVec 3) (op : BitVec 4) (len : Word64) (key : MaskKey) :
      TxRefusable (.txStart fin rsv op len key)
  | txPush (d : Byte) : TxRefusable (.txPush d)

/-- The state that a command which gives RX no byte leads to. -/
inductive CommandOutcome (s : State) : Instr → State → Prop
  | answered (i : Instr) (accepted : Bool) (rdata : Word32) : CommandOutcome s i (s.respond accepted rdata)
  | rxCleared (i : Instr) : CommandOutcome s i (s.clearRx.respond true 0)
  | txCleared : CommandOutcome s .txReset (s.clearTx.respond true 0)
  | txRefused (i : Instr) (hi : TxRefusable i) (err : Option TxCause) :
      CommandOutcome s i ((s.setTx { s.tx with err := err }).respond false 0)
  | txStarted (fin : Bool) (rsv : BitVec 3) (op : BitVec 4) (len : Word64) (key : MaskKey)
      (hcheck : txStartCheck s.tx.state fin rsv op len = none) :
      CommandOutcome s (.txStart fin rsv op len key)
        (((s.emitTx (headerBytes s.role fin op len key)).setTx
          (txStarted s.role fin op len key s.tx.err)).respond true 0)
  | txPushed (d : Byte) (hstate : s.tx.state = .payload) :
      CommandOutcome s (.txPush d)
        (((s.emitTx [mask d s.tx.key s.tx.cnt s.tx.masked]).setTx (txPushed s.tx)).respond true 0)
  | illegal (i : Instr) (code : BitVec 4) (g : IllegalReason) (hi : RaisesIllegal i code g) :
      CommandOutcome s i ((s.setCmdErr (s.cmdErr.record code g)).respond false 0)

/-- Each command ends in one of these ways: as its checks and the unit's state say. -/
theorem commandOutcome {i : Instr} {s t : State} (hbyte : i.wireByte = none) (h : exec i s = .next t) :
    CommandOutcome s i t := by
  cases i with
  | nop => cases h; exact .answered _ _ _
  | rxReset => cases h; exact .rxCleared _
  | txReset => cases h; exact .txCleared
  | rxAck =>
    by_cases hdone : s.rx.state = .done
    · cases (exec_rxAck_of_done hdone).symm.trans h
      exact .rxCleared _
    · cases (exec_rxAck_of_not_done hdone).symm.trans h
      exact .answered _ _ _
  | txStart fin rsv op len key =>
    cases hcheck : txStartCheck s.tx.state fin rsv op len with
    | none =>
      cases (exec_txStart_of_accepted key hcheck).symm.trans h
      exact .txStarted fin rsv op len key hcheck
    | some c =>
      cases (exec_txStart_of_refused key hcheck).symm.trans h
      exact .txRefused _ (.txStart ..) _
  | txPush d =>
    cases hstate : s.tx.state with
    | payload =>
      cases (exec_txPush_of_payload d hstate).symm.trans h
      exact .txPushed d hstate
    | idle =>
      cases (exec_txPush_of_idle d hstate).symm.trans h
      exact .txRefused _ (.txPush d) _
  | rdReg idx =>
    rw [exec, execRdReg] at h
    split at h <;> cases h
    · exact .illegal _ _ _ (.unmappedIndex idx)
    · exact .answered _ _ _
  | reservedCode code rest => cases h; exact .illegal _ _ _ (.reservedCode code rest)
  | _ => cases hbyte

/-- What RX_PUSH leaves as it was, and that `rx_out` and the responses only grow. -/
theorem rxPushByte_frame {d : Byte} {s t : State} (h : rxPushByte d s = .next t) :
    t.role = s.role ∧ t.tx = s.tx ∧ t.cmdErr = s.cmdErr ∧ t.txOut = s.txOut ∧ (∃ bs, t.rxOut = s.rxOut ++ bs) ∧
      ∃ rs, t.responses = s.responses ++ rs := by
  obtain ⟨rx, rfl, -⟩ | ⟨-, rfl⟩ | ⟨-, rfl⟩ := rxPushByte_cases h
  · exact ⟨rfl, rfl, rfl, rfl, ⟨[], (List.append_nil _).symm⟩, _, rfl⟩
  · exact ⟨rfl, rfl, rfl, rfl, ⟨_, rfl⟩, _, rfl⟩
  · exact ⟨rfl, rfl, rfl, rfl, ⟨[], (List.append_nil _).symm⟩, _, rfl⟩

/-! ### ROLE, CMD_ERR and the streams -/

/-- Settles O12: no command and no level of the strap writes ROLE. -/
theorem roleHeldBetweenResets : Obligations.RoleHeldBetweenResets := by
  intro s t h hnoReset
  cases stepOutcome h with
  | idle | illegal | strap => rfl
  | hardReset rest hport => exact absurd hport (hnoReset rest)
  | push d rest _ hport hpush => exact (rxPushByte_frame hpush).left
  | command c i rest _ hport hdecode hbyte hexec => cases commandOutcome hbyte hexec <;> rfl

/-- Settles O38: only an illegal command writes CMD_ERR between resets, and it keeps an earlier record. -/
theorem cmdErrIsSticky : Obligations.CmdErrIsSticky := by
  intro s t h hillegal hnoReset
  cases stepOutcome h with
  | idle | strap => rfl
  | hardReset rest hport => exact absurd hport (hnoReset rest)
  | illegal c code rest => exact CmdErr.record_of_illegal hillegal code _
  | push d rest _ hport hpush =>
    obtain ⟨-, -, hcmdErr, -⟩ := rxPushByte_frame hpush
    exact hcmdErr
  | command c i rest _ hport hdecode hbyte hexec =>
    cases commandOutcome hbyte hexec with
    | illegal i code g => exact CmdErr.record_of_illegal hillegal code g
    | answered | rxCleared | txCleared | txRefused | txStarted | txPushed => rfl

/-- A list that stays as it was has grown by nothing. -/
theorem exists_eq_append_of_eq {α : Type} {xs ys : List α} (h : ys = xs) : ∃ zs, ys = xs ++ zs :=
  ⟨[], h.trans (List.append_nil xs).symm⟩

/-- Settles O45: what a step emits or answers it appends. -/
theorem streamsOnlyGrow : Obligations.StreamsOnlyGrow := by
  intro s t h
  cases stepOutcome h with
  | idle | strap | hardReset =>
    exact ⟨exists_eq_append_of_eq rfl, exists_eq_append_of_eq rfl, exists_eq_append_of_eq rfl⟩
  | illegal => exact ⟨exists_eq_append_of_eq rfl, exists_eq_append_of_eq rfl, _, rfl⟩
  | push d rest _ hport hpush =>
    obtain ⟨-, -, -, htxOut, hrxOut, hresponses⟩ := rxPushByte_frame hpush
    exact ⟨hrxOut, exists_eq_append_of_eq htxOut, hresponses⟩
  | command c i rest _ hport hdecode hbyte hexec =>
    cases commandOutcome hbyte hexec with
    | txStarted | txPushed => exact ⟨exists_eq_append_of_eq rfl, ⟨_, rfl⟩, _, rfl⟩
    | answered | rxCleared | txCleared | txRefused | illegal =>
      exact ⟨exists_eq_append_of_eq rfl, exists_eq_append_of_eq rfl, _, rfl⟩

/-! ### The error records -/

/-- A word that decodes has the CODE that the encoder writes for its instruction (R81). -/
theorem toNat_mod_of_decodeCommand {c : Command} {i : Instr} {w : Command} (h : decodeCommand c = .ok i)
    (hi : encode i = .command w) : c.toNat % 16 = w.code.toNat := by
  obtain ⟨-, hencode⟩ := encode_of_decodeCommand h
  cases hi.symm.trans hencode
  exact c.code_toNat.symm

/-- A word that spells a command which TX can refuse has CODE 4 or 5 (R81). -/
theorem TxRefusable.toNat_mod {c : Command} {i : Instr} (hi : TxRefusable i) (h : decodeCommand c = .ok i) :
    c.toNat % 16 = 4 ∨ c.toNat % 16 = 5 := by
  cases hi with
  | txStart fin rsv op len key =>
    rw [toNat_mod_of_decodeCommand h rfl, encodeTxStart_code]
    exact .inl rfl
  | txPush d =>
    rw [toNat_mod_of_decodeCommand h rfl, encodeByteCommand_code]
    exact .inr rfl

/-- An RX_PUSH that changes the ProtocolError record emits no byte: a payload byte raises no error (R151). -/
theorem rxPushByte_rxOut_of_errCause {d : Byte} {s t : State} (h : rxPushByte d s = .next t)
    (hcause : t.rx.errCause ≠ s.rx.errCause) : t.rxOut = s.rxOut := by
  obtain ⟨rx, rfl, -⟩ | ⟨-, rfl⟩ | ⟨-, rfl⟩ := rxPushByte_cases h
  · rfl
  · exact absurd rfl hcause
  · rfl

/-- Settles O49: an RX_PUSH writes RX alone, a command that TX refuses TX_ERR alone, and an illegal one CMD_ERR alone;
the others record nothing. -/
theorem commandRecordsAtMostOneError : Obligations.CommandRecordsAtMostOneError := by
  intro c s t rest hport h
  cases stepOutcome h with
  | idle hport' | strap _ _ hport' | hardReset _ hport' => cases hport.symm.trans hport'
  | push d _ _ hport' hpush =>
    cases hport.symm.trans hport'
    obtain ⟨-, htx, hcmdErr, htxOut, -⟩ := rxPushByte_frame hpush
    have hcode : (encodeByteCommand 0x1 d).toNat % 16 = 1 := by
      rw [← Command.code_toNat, encodeByteCommand_code]
      rfl
    exact ⟨fun hcause _ =>
        ⟨hcode, htx, htxOut, rxPushByte_rxOut_of_errCause (s := s.setPort rest) hpush hcause, hcmdErr⟩,
      fun herr => absurd (congrArg TxUnit.err htx) herr, fun herr => absurd hcmdErr herr⟩
  | illegal => exact ⟨fun hcause => absurd rfl hcause, fun herr => absurd rfl herr, fun _ => ⟨rfl, rfl, rfl, rfl, rfl⟩⟩
  | command _ i _ _ hport' hdecode hbyte hexec =>
    cases hport.symm.trans hport'
    cases commandOutcome hbyte hexec with
    | answered | txStarted | txPushed =>
      exact ⟨fun hcause => absurd rfl hcause, fun herr => absurd rfl herr, fun herr => absurd rfl herr⟩
    | rxCleared =>
      exact ⟨fun _ hcause => absurd rfl hcause, fun herr => absurd rfl herr, fun herr => absurd rfl herr⟩
    | txCleared => exact ⟨fun hcause => absurd rfl hcause, fun _ herr => absurd rfl herr, fun herr => absurd rfl herr⟩
    | txRefused _ hi =>
      exact ⟨fun hcause => absurd rfl hcause, fun _ _ => ⟨hi.toNat_mod hdecode, rfl, rfl, rfl, rfl⟩,
        fun herr => absurd rfl herr⟩
    | illegal =>
      exact ⟨fun hcause => absurd rfl hcause, fun herr => absurd rfl herr, fun _ => ⟨rfl, rfl, rfl, rfl, rfl⟩⟩

end Sys2Proof.Machine
end

section
/-! PROOFS. The invariant of the registers (spec 10_state.md R23 to R33): it holds after a reset, and every step keeps
it. -/

namespace Sys2Proof.Machine

/-! ### After a reset -/

theorem RxInv.cleared (r : Role) : RxInv r .cleared := rfl

theorem TxInv.cleared (r : Role) : TxInv r .cleared :=
  ⟨.inl rfl, by decide, by decide, by decide⟩

/-- Settles O42: every register is at its cleared value. -/
theorem invariantAtReset : Obligations.InvariantAtReset := fun r => ⟨.cleared r, .cleared r, .inl rfl⟩

/-! ### RX: a byte that raises an error -/

section
variable {r : Role} {rx : RxUnit} {d : Byte}

/-- The causes that byte 0 raises (R142). -/
theorem byte0Check_eq_some {c : ProtocolCause} (h : byte0Check d = some c) :
    c = .rsvNonzero ∨ c = .opcodeReserved ∨ c = .controlFragmented := by
  grind [byte0Check]

/-- The causes that byte 1 raises (R144). -/
theorem byte1Check_eq_some {op : BitVec 4} {c : ProtocolCause} (h : byte1Check r op d = some c) :
    c = .unmasked ∨ c = .masked ∨ c = .controlTooLong := by
  grind [byte1Check]

/-- A byte 1 that has not been captured has no fields (R23, R46). -/
theorem byte1Fields_zero : false = maskedOf 0 ∧ 0 = len7Of 0 := by
  decide

/-- Byte 0 (R142). -/
theorem RxInv.hdr0_error (hinv : RxInv r rx) (hstate : rx.state = .hdr0) (herror : (rxHdr0 d rx).state = .error) :
    RxInv r (rxHdr0 d rx) := by
  obtain rfl := (RxInv.hdr0_iff hstate).mp hinv
  rw [rxHdr0] at herror ⊢
  cases hcheck : byte0Check d with
  | none =>
    rw [hcheck] at herror
    cases herror
  | some c =>
    refine ⟨⟨rfl, rfl, rfl⟩, ⟨rfl, rfl, rfl⟩, ?_⟩
    obtain rfl | rfl | rfl := byte0Check_eq_some hcheck <;>
      exact ⟨rfl, rfl, rfl, hcheck, rfl, byte1Fields_zero, rfl, rfl, rfl⟩

/-- In HDR1 the registers hold byte 0 alone, which passed its checks (R141). -/
theorem RxInv.eq_byte0Read (hinv : RxInv r rx) (hstate : rx.state = .hdr1) :
    rx = .byte0Read rx.b0 ∧ byte0Check rx.b0 = none := by
  obtain ⟨hrx, hcheck⟩ := (RxInv.hdr1_iff hstate).mp hinv
  obtain ⟨hrsv, -⟩ := byte0Check_eq_none_iff.mp hcheck
  refine ⟨?_, hcheck⟩
  rw [RxUnit.byte0Read, hrsv]
  exact hrx

/-- Byte 1 (R144). -/
theorem RxInv.hdr1_error (hinv : RxInv r rx) (hstate : rx.state = .hdr1) (herror : (rxHdr1 r d rx).state = .error) :
    RxInv r (rxHdr1 r d rx) := by
  obtain ⟨hread, hcheck0⟩ := hinv.eq_byte0Read hstate
  generalize rx.b0 = b0 at hread hcheck0
  subst hread
  rw [rxHdr1] at herror ⊢
  cases hcheck : byte1Check r b0.opcode d with
  | none =>
    rw [RxUnit.byte0Read, hcheck] at herror
    exact absurd herror (afterByte1_state_ne_error _)
  | some c =>
    rw [RxUnit.byte0Read, hcheck]
    refine ⟨⟨rfl, rfl, rfl⟩, ⟨rfl, rfl, rfl⟩, ?_⟩
    obtain rfl | rfl | rfl := byte1Check_eq_some hcheck <;>
      exact ⟨rfl, rfl, rfl, ⟨rfl, rfl⟩, ⟨rfl, rfl, rfl⟩, hcheck0, hcheck⟩

/-- The low byte of the accumulation is the byte just taken (R146). -/
theorem RxUnit.accumulated_len_setWidth (rx : RxUnit) (d : Byte) : (rx.accumulated d).len.setWidth 8 = d := by
  refine BitVec.eq_of_getLsbD_eq fun i hi => ?_
  simp [RxUnit.accumulated, hi]

/-- No byte of the length has been taken yet, so the accumulation is 0 (R145). -/
theorem LengthPartial.len_eq_zero (h : LengthPartial rx) (hidx : rx.extIdx = 0) : rx.len = 0 := by
  refine BitVec.eq_of_toNat_eq ?_
  obtain ⟨-, -, -, hlen⟩ | ⟨-, -, -, hlen⟩ := h
  · rw [hidx] at hlen
    exact Nat.lt_one_iff.mp hlen
  · have hlow : max 2 (256 ^ (0 : BitVec 4).toNat) = 2 := rfl
    rw [hidx, hlow] at hlen
    show rx.len.toNat = 0
    omega

/-- An extended-length byte (R147, R148). -/
theorem RxInv.extLen_error (hinv : RxInv r rx) (hstate : rx.state = .extLen)
    (herror : (rxExtLen d rx).state = .error) : RxInv r (rxExtLen d rx) := by
  obtain ⟨hheader, hnone, -, hpartial, hpos⟩ := (RxInv.extLen_iff hstate).mp hinv
  have ⟨hbyte0, _⟩ := hheader
  have hkeyIdx : rx.keyIdx.toNat = 0 := by rw [hnone.left]; rfl
  rw [HposCounts, hkeyIdx] at hpos
  cases hmsb : lenMsbCheck rx.extNeed (rx.extIdx + 1) d with
  | true =>
    obtain ⟨hneed, hfirst, hbit⟩ := lenMsbCheck_iff.mp hmsb
    have hhpos : rx.hpos = 2 := BitVec.eq_of_toNat_eq (by rw [hpos, hfirst]; rfl)
    rw [rxExtLen_of_msb hmsb]
    refine ⟨hbyte0, hnone, hheader, hhpos, ?_, hneed, ?_, hbit, ?_⟩
    · simp [RxUnit.accumulated, hhpos]
    · simp [RxUnit.accumulated, hfirst]
    · simp [RxUnit.accumulated, hpartial.len_eq_zero hfirst]
  | false =>
    by_cases hlast : rx.extIdx + 1 = rx.extNeed
    · cases hwide : lenNonminimalCheck rx.extNeed (rx.accumulated d).len with
      | true =>
        rw [rxExtLen_of_overWide hmsb hlast hwide]
        refine ⟨hbyte0, hnone, hheader, hlast, (rx.accumulated_len_setWidth d).symm, ?_⟩
        have hidx : rx.extIdx.toNat + 1 = rx.extNeed.toNat := by
          rw [← hpartial.accumulated_extIdx_toNat d, ← hlast]
          rfl
        obtain ⟨hneed, hlen⟩ | ⟨hneed, hlen⟩ := lenNonminimalCheck_iff.mp hwide
        · have hone : rx.extIdx.toNat = 1 := by simpa [hneed] using hidx
          have hhpos : rx.hpos = 3 := BitVec.eq_of_toNat_eq (by rw [hpos, hone]; rfl)
          exact .inl ⟨hhpos, by simp [RxUnit.accumulated, hhpos], hneed, BitVec.lt_def.mpr hlen⟩
        · have hseven : rx.extIdx.toNat = 7 := by simpa [hneed] using hidx
          have hhpos : rx.hpos = 9 := BitVec.eq_of_toNat_eq (by rw [hpos, hseven]; rfl)
          exact .inr ⟨hhpos, by simp [RxUnit.accumulated, hhpos], hneed, BitVec.lt_def.mpr hlen⟩
      | false =>
        rw [rxExtLen_of_last hmsb hlast hwide] at herror
        exact absurd herror (afterLen_ne_error _ _)
    · rw [rxExtLen_of_more hmsb hlast] at herror
      cases hstate.symm.trans herror

/-- Registers that keep the invariant have read the bytes they spell. -/
theorem RxInv.read (hinv : RxInv r rx) : ∃ bs out, RxRead r rx bs out :=
  ⟨_, List.replicate rx.cnt.toNat 0, hinv, rfl, List.length_replicate⟩

/-- RX_PUSH keeps the invariant of RX: a byte is accounted for, or its error is recorded (R140). -/
theorem RxInv.rxPushByte {s t : State} (hinv : RxInv s.role s.rx) (h : rxPushByte d s = .next t) :
    RxInv s.role t.rx := by
  obtain ⟨bs, out, hread⟩ := hinv.read
  obtain ⟨rx, rfl, ⟨hstate, rfl⟩ | ⟨hstate, rfl⟩ | ⟨hstate, rfl⟩ | ⟨hstate, rfl⟩⟩ | ⟨hstate, rfl⟩ | ⟨-, rfl⟩ :=
    rxPushByte_cases h
  · exact (hread.hdr0 hstate d).elim (hinv.hdr0_error hstate) RxRead.inv
  · exact (hread.hdr1 hstate d).elim (hinv.hdr1_error hstate) RxRead.inv
  · exact (hread.extLen hstate d).elim (hinv.extLen_error hstate) RxRead.inv
  · exact (hread.maskKey hstate d).inv
  · exact (hread.payload hstate d).inv
  · exact hinv

end

/-! ### TX -/

section
variable {r : Role} {tx : TxUnit}

/-- TX_ERR is no part of the invariant of TX. -/
theorem TxInv.setErr (h : TxInv r tx) (err : Option TxCause) : TxInv r { tx with err := err } := by
  obtain ⟨hcleared | hlatched, hcounts⟩ := h
  · refine ⟨.inl ?_, hcounts⟩
    rw [hcleared]
  · exact ⟨.inr hlatched, hcounts⟩

/-- An accepted TX_START latches a frame that passed its checks, with every payload byte owed (R112, R113). -/
theorem TxInv.txStarted {st : TxState} {fin : Bool} {rsv : BitVec 3} {op : BitVec 4} {len : Word64}
    (hcheck : txStartCheck st fin rsv op len = none) (key : MaskKey) (err : Option TxCause) :
    TxInv r (txStarted r fin op len key err) := by
  obtain ⟨-, -, hdefined, hcontrol, hlen⟩ := txStartCheck_eq_none_iff.mp hcheck
  have hkey : txMasks r = false → txKey r key = MaskKey.zero := fun hmask => by rw [txKey, hmask]; rfl
  refine ⟨.inr ⟨rfl, rfl, rfl, rfl, rfl, hkey, hdefined, fun hctl => ?_⟩, ?_, ?_, ?_⟩
  · exact ⟨(hcontrol hctl).left, BitVec.le_def.mpr (hcontrol hctl).right⟩
  · exact BitVec.le_def.mpr (Nat.zero_le _)
  · exact BitVec.le_def.mpr (Nat.le_of_lt_succ hlen)
  · show (if len = 0 then TxState.idle else .payload) = .payload ↔ 0#64 < len
    split
    next hzero => simp [hzero]
    next hpos => exact iff_of_true rfl (by bv_omega)

/-- An accepted TX_PUSH counts one byte of the frame, and leaves PAYLOAD with the last (R116, R117). -/
theorem TxInv.txPushed (h : TxInv r tx) (hstate : tx.state = .payload) : TxInv r (txPushed tx) := by
  obtain ⟨hframe, -, hmax, howed⟩ := h
  have hlt : tx.cnt < tx.len := howed.mp hstate
  have hlatched : TxFrameLatched r tx := by
    refine hframe.resolve_left fun hcleared => ?_
    rw [hcleared] at hstate
    cases hstate
  refine ⟨.inr hlatched, ?_, hmax, ?_⟩
  · show tx.cnt + 1 ≤ tx.len
    bv_omega
  · show (if tx.cnt + 1 = tx.len then TxState.idle else tx.state) = .payload ↔ tx.cnt + 1 < tx.len
    rw [hstate]
    split
    next hlast =>
      rw [hlast]
      simp
    next hmore => exact iff_of_true rfl (by bv_omega)

end

/-! ### CMD_ERR -/

/-- What is recorded of an illegal command: a CODE that fits the reason (R214). -/
theorem CmdErrInv.record {e : CmdErr} (h : CmdErrInv e) {code : BitVec 4} {g : IllegalReason}
    (hfit : CmdErrInv ⟨true, code, some g⟩) : CmdErrInv (e.record code g) := by
  rw [CmdErr.record]
  split
  · exact h
  · exact hfit

/-- The CODE recorded for an illegal command that decodes fits its reason (R181, R183). -/
theorem RaisesIllegal.fits {i : Instr} {code : BitVec 4} {g : IllegalReason} (h : RaisesIllegal i code g)
    (hi : i.wellFormed = true) : CmdErrInv ⟨true, code, some g⟩ := by
  cases h with
  | reservedCode code rest => exact .inr ⟨rfl, of_decide_eq_true hi⟩
  | unmappedIndex idx => exact .inr ⟨rfl, rfl⟩

/-- A word is rejected with the CODE it has, which is a defined one (R184). -/
theorem code_lt_of_decodeAt_error {c : Command} {start : Bool} {code : BitVec 4}
    (h : decodeAt start c = .error (.reservedBit code)) : code < 8#4 := by
  cases hdecode : decodeCommand c with
  | ok i =>
    obtain ⟨j, hj⟩ := exists_decodeAt_eq_ok hdecode start
    cases hj.symm.trans h
  | error e =>
    cases (decodeAt_of_error hdecode start).symm.trans h
    unfold decodeCommand at hdecode
    split at hdecode
    · cases hdecode
    next hcode =>
      split at hdecode <;> cases hdecode
      exact BitVec.not_le.mp hcode

/-! ### The machine -/

/-- Settles O43: unit by unit, by the host's next event. -/
theorem stepKeepsTheInvariant : Obligations.StepKeepsTheInvariant := by
  intro s t hinv h
  obtain ⟨hrx, htx, herr⟩ := hinv
  cases stepOutcome h with
  | idle | strap => exact ⟨hrx, htx, herr⟩
  | hardReset => exact ⟨.cleared s.strap, .cleared s.strap, .inl rfl⟩
  | illegal c code rest hport hdecode =>
    exact ⟨hrx, htx, herr.record (.inr ⟨rfl, code_lt_of_decodeAt_error hdecode⟩)⟩
  | push d rest _ hport hpush =>
    obtain ⟨hrole, htx', herr', -⟩ := rxPushByte_frame hpush
    refine ⟨?_, ?_, ?_⟩
    · rw [hrole]
      exact RxInv.rxPushByte (s := s.setPort rest) hrx hpush
    · rw [hrole, htx']
      exact htx
    · rw [herr']
      exact herr
  | command c i rest _ hport hdecode hbyte hexec =>
    cases commandOutcome hbyte hexec with
    | answered => exact ⟨hrx, htx, herr⟩
    | rxCleared => exact ⟨.cleared _, htx, herr⟩
    | txCleared => exact ⟨hrx, .cleared _, herr⟩
    | txRefused _ _ err => exact ⟨hrx, htx.setErr err, herr⟩
    | txStarted fin rsv op len key hcheck => exact ⟨hrx, .txStarted hcheck key _, herr⟩
    | txPushed d hstate => exact ⟨hrx, htx.txPushed hstate, herr⟩
    | illegal _ code g hi =>
      obtain ⟨hwellFormed, -⟩ := encode_of_decodeCommand hdecode
      exact ⟨hrx, htx, herr.record (hi.fits hwellFormed)⟩

end Sys2Proof.Machine
end

section
/-! PROOFS. Which byte strings RX accepts (spec 42_decoder.md R163): it takes a valid frame to DONE exactly on its last
byte, and on bytes that begin with no valid frame it ends in ERROR or needs more. -/

namespace Sys2Proof.Machine

/-- RX needs more bytes where it has neither a frame nor an error (R27). -/
theorem RxUnit.needMore_of_not_stopped {rx : RxUnit} (h : ¬ (rx.state = .done ∨ rx.state = .error)) :
    rx.needMore = true := by
  rw [RxUnit.needMore]
  cases hs : rx.state with
  | done => exact absurd (.inl hs) h
  | error => exact absurd (.inr hs) h
  | hdr0 | hdr1 | extLen | maskKey | payload => rfl

/-! ### Valid frames -/

/-- RX answers every byte (R84, R164). -/
theorem execAll_rxFeed_responds (bs : List Byte) (s : State) :
    ∃ t rs, execAll (rxFeed bs) s = .next t ∧ rs.length = bs.length ∧ t.responses = s.responses ++ rs := by
  induction bs generalizing s with
  | nil => exact ⟨s, [], rfl, rfl, (List.append_nil _).symm⟩
  | cons b bs ih =>
    obtain ⟨u, hu⟩ := rxPushByte_next b s
    obtain ⟨a, ha⟩ : ∃ a, u.responses = s.responses ++ [a] := by
      obtain ⟨rx, rfl, -⟩ | ⟨-, rfl⟩ | ⟨-, rfl⟩ := rxPushByte_cases hu <;> exact ⟨_, rfl⟩
    obtain ⟨t, rs, ht, hlength, hresponses⟩ := ih u
    refine ⟨t, a :: rs, ?_, by simp [hlength], by simp [hresponses, ha]⟩
    rw [rxFeed_cons, execAll_cons_of_next (show exec (.rxPush b) s = .next u from hu), ht]

/-- Where RX takes all of some bytes, it needs more of them until the last: where it stops it takes none. -/
theorem RxTakes.needMore_of_append {r : Role} {rx rx' : RxUnit} {xs ys out : List Byte}
    (h : RxTakes r rx (xs ++ ys) rx' out) (hys : ys ≠ []) {s : State} (hr : s.role = r) (hrx : s.rx = rx) :
    ∃ t, execAll (rxFeed xs) s = .next t ∧ t.rx.needMore = true ∧
      t.responses = s.responses ++ List.replicate xs.length ⟨true, 0⟩ := by
  obtain ⟨t, rs, ht, hlength, hresponses⟩ := execAll_rxFeed_responds xs s
  obtain ⟨u, us, hu, -, huResponses⟩ := execAll_rxFeed_responds ys t
  have htaken : rs ++ us = List.replicate (xs ++ ys).length ⟨true, 0⟩ := by
    have hboth := h s hr hrx
    rw [rxFeed_append, execAll_append_of_next ht, hu] at hboth
    cases hboth
    rw [hresponses, List.append_assoc] at huResponses
    exact (List.append_cancel_left huResponses).symm
  obtain ⟨-, hrs, hus⟩ := List.append_eq_replicate_iff.mp htaken
  refine ⟨t, ht, RxUnit.needMore_of_not_stopped fun hstopped => ?_, by rw [hresponses, hrs, hlength]⟩
  rw [execAll_rxFeed_of_done_or_error ys t hstopped] at hu
  cases hu
  have hrejected : ⟨false, 0⟩ ∈ us := by
    rw [← List.append_cancel_left huResponses]
    exact List.mem_replicate.mpr ⟨(List.length_pos_of_ne_nil hys).ne', rfl⟩
  exact absurd ((List.eq_replicate_iff.mp hus).right _ hrejected) (by decide)

/-- Settles O53: a valid frame is taken as a whole, so RX needed each of its bytes; in DONE it takes no other. -/
theorem decoderAcceptsValidFrames : Obligations.DecoderAcceptsValidFrames := by
  intro b0 b1 ext key payload s hcleared hvalid bytes
  have htakes : RxTakes s.role .cleared bytes _ _ := RxTakes.validFrame hvalid
  refine ⟨fun taken left hsplit hleft => ?_, fun more => ?_⟩
  · exact RxTakes.needMore_of_append (hsplit ▸ htakes) hleft rfl hcleared
  · rw [rxFeed_append, execAll_append_of_next (htakes s rfl hcleared)]
    exact ⟨_, execAll_rxFeed_of_done_or_error more _ (.inl rfl), rfl, rfl, rfl⟩

/-! ### Other bytes -/

section
variable {bs out : List Byte}

/-- The bytes of a frame that RX holds in DONE are a valid frame for its role (R89, R166). -/
theorem RxRead.isValidFrame {r : Role} {rx : RxUnit} (h : RxRead r rx bs out) (hdone : rx.state = .done) :
    IsValidFrame r bs := by
  have hmask : ((rx.frame out).sentBy r.opposite).masked = true ↔ r = .server := by
    have hopposite : r.opposite.opposite = r := by cases r <;> rfl
    exact (txMasks_iff_opposite r.opposite).trans (by rw [hopposite])
  have hvalid := ((h.frame_encodable hdone).sentBy r.opposite).validFrame hmask
  exact ⟨_, _, _, _, _, (h.wire_eq hdone).symm.trans (Frame.wire_eq_frameBytes _), hvalid⟩

/-- One byte more: RX enters ERROR at a header position, before any payload byte, or accounts for the byte too. -/
theorem RxRead.push_or_error {s : State} (h : RxRead s.role s.rx bs out)
    (hmore : ¬ (s.rx.state = .done ∨ s.rx.state = .error)) (d : Byte) :
    ∃ t new, exec (.rxPush d) s = .next t ∧ t.role = s.role ∧ t.rxOut = s.rxOut ++ new ∧
      ((t.rx.state = .error ∧ t.rx.errPos.toNat ≤ 9 ∧ out ++ new = []) ∨
       (t.rx.state ≠ .error ∧ RxRead s.role t.rx (bs ++ [d]) (out ++ new))) := by
  obtain ⟨rx', new, htakes, hread⟩ := h.push hmore d
  obtain ⟨t, ht⟩ := rxPushByte_next d s
  obtain rfl : t = s.took rx' 1 new := by
    have hfed := htakes s rfl rfl
    rw [rxFeed_cons, execAll_cons_of_next (show exec (.rxPush d) s = .next t from ht)] at hfed
    injection hfed
  refine ⟨_, new, ht, rfl, rfl, ?_⟩
  by_cases herror : rx'.state = .error
  · obtain ⟨-, hraised, hpos, hcnt, hsame⟩ := h.inv.raisedOn_header ht (fun he => hmore (.inr he)) herror
    have hnew : new = [] := by
      have hrxOut : s.rxOut ++ new = s.rxOut := congrArg State.rxOut hsame
      exact List.append_right_eq_self.mp hrxOut
    refine .inl ⟨herror, ?_, by rw [h.out_eq_nil hcnt, hnew]; rfl⟩
    rw [hraised.errPos_eq]
    simp only [List.mem_cons, List.not_mem_nil, or_false] at hpos
    omega
  · exact .inr ⟨herror, hread.resolve_left herror⟩

/-- Bytes that complete no valid frame lead to ERROR, with no payload byte emitted since the frame's start, or RX needs
more of them. -/
theorem RxRead.rejects_or_awaits {s : State} {read : List Byte} (h : RxRead s.role s.rx read out)
    (hnoError : s.rx.state ≠ .error)
    (hinvalid : ∀ taken left, taken ++ left = bs → ¬ IsValidFrame s.role (read ++ taken)) :
    ∃ t, execAll (rxFeed bs) s = .next t ∧
      ((t.rx.state = .error ∧ t.rx.errPos.toNat ≤ 9 ∧ out = [] ∧ t.rxOut = s.rxOut) ∨ t.rx.needMore = true) := by
  have hmore : ¬ (s.rx.state = .done ∨ s.rx.state = .error) := by
    refine not_or.mpr ⟨fun hdone => ?_, hnoError⟩
    exact hinvalid [] bs rfl (by simpa using h.isValidFrame hdone)
  induction bs generalizing s read out with
  | nil => exact ⟨s, rfl, .inr (RxUnit.needMore_of_not_stopped hmore)⟩
  | cons d ds ih =>
    obtain ⟨t, new, ht, hrole, hrxOut, ⟨herror, hpos, hnone⟩ | ⟨hstate, hread⟩⟩ := h.push_or_error hmore d
    · obtain ⟨hout, hnew⟩ := List.append_eq_nil_iff.mp hnone
      refine ⟨_, (execAll_cons_of_next ht).trans (execAll_rxFeed_of_done_or_error ds t (.inr herror)), .inl ?_⟩
      exact ⟨herror, hpos, hout, by simp [hrxOut, hnew]⟩
    · rw [← hrole] at hread hinvalid
      have hrest : ∀ taken left, taken ++ left = ds → ¬ IsValidFrame t.role (read ++ [d] ++ taken) := by
        rintro taken left rfl
        simpa using hinvalid (d :: taken) left rfl
      have hmore' : ¬ (t.rx.state = .done ∨ t.rx.state = .error) := by
        refine not_or.mpr ⟨fun hdone => ?_, hstate⟩
        exact hrest [] ds rfl (by simpa using hread.isValidFrame hdone)
      obtain ⟨u, hu, hend⟩ := ih hread hstate hrest hmore'
      refine ⟨u, (execAll_cons_of_next ht).trans hu, hend.imp_left ?_⟩
      rintro ⟨herror, hpos, hnone, hkept⟩
      obtain ⟨hout, hnew⟩ := List.append_eq_nil_iff.mp hnone
      exact ⟨herror, hpos, hout, by simp [hkept, hrxOut, hnew]⟩

end

/-- Settles O54: from the frame's start no byte has been read. -/
theorem decoderRejectsOrAwaits : Obligations.DecoderRejectsOrAwaits := by
  intro bytes s hcleared hinvalid
  obtain ⟨t, ht, hend⟩ := RxRead.rejects_or_awaits (hcleared ▸ RxRead.start s.role) (by rw [hcleared]; nofun) hinvalid
  exact ⟨t, ht, hend.imp_left fun ⟨herror, hpos, _, hrxOut⟩ => ⟨herror, hpos, hrxOut⟩⟩

end Sys2Proof.Machine
end

section
/-! PROOFS. The payload bytes that TX still owes (spec 41_encoder.md R117), and four payload bytes masked as one word
(40_masking.md R106). -/

namespace Sys2Proof.Machine

/-- Settles O30: in PAYLOAD bytes are owed, and TX takes exactly those. -/
theorem txFrameTakesExactlyItsLength : Obligations.TxFrameTakesExactlyItsLength := by
  intro bs s hinv hstate hlen
  obtain ⟨-, -, -, howed⟩ := hinv.tx
  have hne : s.tx.cnt ≠ s.tx.len := BitVec.ne_of_lt (howed.mp hstate)
  exact ⟨_, execAll_txPush bs s (hstate.trans (if_neg hne).symm) hlen, rfl, rfl⟩

/-- Settles O41: the four indices stand on the lanes 0 to 3, and XOR works byte by byte. -/
theorem fourBytesMaskAsOneWord : Obligations.FourBytesMaskAsOneWord := by
  intro p0 p1 p2 p3 k i hi
  have hlane : ∀ n : Nat, n < 4 → (i + BitVec.ofNat 64 n).toNat % 4 = n := by
    intro n hn
    rw [BitVec.toNat_add, BitVec.toNat_ofNat]
    omega
  have h1 : (i + 1).toNat % 4 = 1 := hlane 1 (by decide)
  have h2 : (i + 2).toNat % 4 = 2 := hlane 2 (by decide)
  have h3 : (i + 3).toNat % 4 = 3 := hlane 3 (by decide)
  rw [BitVec.xor_append, BitVec.xor_append, BitVec.xor_append]
  simp only [mask_true, keyLane_index, hi, h1, h2, h3]
  rfl

end Sys2Proof.Machine
end

section
/-! PROOFS. The two units read and write their own registers alone (spec 20_memory.md R64), ROLE selects the mask rules
and what CFG reads (60_exceptions.md R220), and instances share no state (R222). -/

namespace Sys2Proof.Machine

/-! ### The effect of a command of one unit (R64) -/

/-- The registers of RX written, bytes emitted to `rx_out`, and a response. -/
def State.rxEffect (s : State) (rx : RxUnit) (out : List Byte) (accepted : Bool) : State :=
  { s with rx := rx, rxOut := s.rxOut ++ out, responses := s.responses ++ [⟨accepted, 0⟩] }

/-- The registers of TX written, bytes emitted to `tx_out`, and a response. -/
def State.txEffect (s : State) (tx : TxUnit) (out : List Byte) (accepted : Bool) : State :=
  { s with tx := tx, txOut := s.txOut ++ out, responses := s.responses ++ [⟨accepted, 0⟩] }

/-- The commands of RX. -/
def IsRxCommand (i : Instr) : Prop := (∃ d, i = .rxPush d) ∨ i = .rxAck ∨ i = .rxReset

/-- The commands of TX. -/
def IsTxCommand (j : Instr) : Prop :=
  (∃ fin rsv op len key, j = .txStart fin rsv op len key) ∨ (∃ d, j = .txPush d) ∨ j = .txReset

theorem State.setRx_respond (s : State) (rx : RxUnit) (a : Bool) : (s.setRx rx).respond a 0 = s.rxEffect rx [] a := by
  simp [State.setRx, State.respond, State.rxEffect]

theorem State.setTx_respond (s : State) (tx : TxUnit) (a : Bool) : (s.setTx tx).respond a 0 = s.txEffect tx [] a := by
  simp [State.setTx, State.respond, State.txEffect]

/-- What a command of RX does is settled by ROLE and the RX registers. -/
theorem exec_rxCommand {i : Instr} (hi : IsRxCommand i) (r : Role) (rx : RxUnit) :
    ∃ rx' out a, ∀ s : State, s.role = r → s.rx = rx → exec i s = .next (s.rxEffect rx' out a) := by
  have header {i : Instr} (rx' : RxUnit) (a : Bool)
      (h : ∀ s : State, s.role = r → s.rx = rx → exec i s = .next ((s.setRx rx').respond a 0)) :
      ∃ rx' out a, ∀ s : State, s.role = r → s.rx = rx → exec i s = .next (s.rxEffect rx' out a) :=
    ⟨rx', [], a, fun s hr hrx => by rw [h s hr hrx, State.setRx_respond]⟩
  obtain ⟨d, rfl⟩ | rfl | rfl := hi
  · cases hs : rx.state with
    | hdr0 => exact header (rxHdr0 d rx) true fun s hr hrx => by subst hrx; exact exec_rxPush_of_hdr0 d hs
    | hdr1 => exact header (rxHdr1 r d rx) true fun s hr hrx => by subst hr hrx; exact exec_rxPush_of_hdr1 d hs
    | extLen => exact header (rxExtLen d rx) true fun s hr hrx => by subst hrx; exact exec_rxPush_of_extLen d hs
    | maskKey => exact header (rxMaskKey d rx) true fun s hr hrx => by subst hrx; exact exec_rxPush_of_maskKey d hs
    | payload =>
      exact ⟨rxPayload rx, [mask d rx.key rx.cnt rx.masked], true,
        fun s hr hrx => by subst hrx; exact exec_rxPush_of_payload d hs⟩
    | done => exact header rx false fun s hr hrx => by subst hrx; exact exec_rxPush_of_done_or_error d (.inl hs)
    | error => exact header rx false fun s hr hrx => by subst hrx; exact exec_rxPush_of_done_or_error d (.inr hs)
  · by_cases hdone : rx.state = .done
    · exact header .cleared true fun s hr hrx => by subst hrx; exact exec_rxAck_of_done hdone
    · exact header rx false fun s hr hrx => by subst hrx; exact exec_rxAck_of_not_done hdone
  · exact header .cleared true fun _ _ _ => rfl

/-- What a command of TX does is settled by ROLE and the TX registers. -/
theorem exec_txCommand {j : Instr} (hj : IsTxCommand j) (r : Role) (tx : TxUnit) :
    ∃ tx' out a, ∀ s : State, s.role = r → s.tx = tx → exec j s = .next (s.txEffect tx' out a) := by
  have silent {j : Instr} (tx' : TxUnit) (a : Bool)
      (h : ∀ s : State, s.role = r → s.tx = tx → exec j s = .next ((s.setTx tx').respond a 0)) :
      ∃ tx' out a, ∀ s : State, s.role = r → s.tx = tx → exec j s = .next (s.txEffect tx' out a) :=
    ⟨tx', [], a, fun s hr htx => by rw [h s hr htx, State.setTx_respond]⟩
  obtain ⟨fin, rsv, op, len, key, rfl⟩ | ⟨d, rfl⟩ | rfl := hj
  · cases hcheck : txStartCheck tx.state fin rsv op len with
    | some c =>
      exact silent { tx with err := if tx.err = none then some c else tx.err } false
        fun s hr htx => by subst htx; exact exec_txStart_of_refused key hcheck
    | none =>
      exact ⟨txStarted r fin op len key tx.err, headerBytes r fin op len key, true,
        fun s hr htx => by subst hr htx; exact exec_txStart_of_accepted key hcheck⟩
  · cases hs : tx.state with
    | idle =>
      exact silent { tx with err := if tx.err = none then some .noFrame else tx.err } false
        fun s hr htx => by subst htx; exact exec_txPush_of_idle d hs
    | payload =>
      exact ⟨txPushed tx, [mask d tx.key tx.cnt tx.masked], true,
        fun s hr htx => by subst htx; exact exec_txPush_of_payload d hs⟩
  · exact silent .cleared true fun _ _ _ => rfl

/-- Settles O46: the effects are on disjoint fields but for the responses, and neither unit's changes the other's. -/
theorem rxAndTxCommandsCommute : Obligations.RxAndTxCommandsCommute := by
  intro i j hi hj s
  obtain ⟨rx, rxOut, a, hrx⟩ := exec_rxCommand hi s.role s.rx
  obtain ⟨tx, txOut, b, htx⟩ := exec_txCommand hj s.role s.tx
  exact ⟨s.rxEffect rx rxOut a, s.txEffect tx txOut b, (s.rxEffect rx rxOut a).txEffect tx txOut b,
    (s.txEffect tx txOut b).rxEffect rx rxOut a, hrx s rfl rfl, htx s rfl rfl, htx _ rfl rfl, hrx _ rfl rfl,
    rfl, rfl, rfl, rfl, rfl, rfl, rfl, rfl, rfl, rfl, rfl⟩

/-- Settles O47: the effect is settled by ROLE and the unit's registers. -/
theorem unitsReadOnlyTheirOwnRegisters : Obligations.UnitsReadOnlyTheirOwnRegisters := by
  refine ⟨fun i hi s s' hrole hrx => ?_, fun j hj s s' hrole htx => ?_⟩
  · obtain ⟨rx, out, a, h⟩ := exec_rxCommand hi s.role s.rx
    exact ⟨_, _, out, ⟨a, 0⟩, h s rfl rfl, h s' hrole.symm hrx.symm, rfl, rfl, rfl, rfl, rfl⟩
  · obtain ⟨tx, out, a, h⟩ := exec_txCommand hj s.role s.tx
    exact ⟨_, _, out, ⟨a, 0⟩, h s rfl rfl, h s' hrole.symm htx.symm, rfl, rfl, rfl, rfl, rfl⟩

/-! ### ROLE (R220) -/

/-- ROLE is shown by CFG alone (R32). -/
theorem Reg.value_of_role {g : Reg} (hg : g ≠ .cfg) (s : State) (r : Role) :
    g.value { s with role := r } = g.value s := by
  cases g with
  | cfg => exact absurd rfl hg
  | _ => rfl

/-- Outside HDR1 a byte has the same effect at either role (R144). -/
theorem rxPushByte_of_role (d : Byte) {s : State} (r : Role) (hs : s.rx.state ≠ .hdr1) :
    ∃ t, rxPushByte d s = .next t ∧ t.role = s.role ∧
      rxPushByte d { s with role := r } = .next { t with role := r } := by
  cases hstate : s.rx.state with
  | hdr0 => exact ⟨_, exec_rxPush_of_hdr0 d hstate, rfl, exec_rxPush_of_hdr0 d hstate⟩
  | hdr1 => exact absurd hstate hs
  | extLen => exact ⟨_, exec_rxPush_of_extLen d hstate, rfl, exec_rxPush_of_extLen d hstate⟩
  | maskKey => exact ⟨_, exec_rxPush_of_maskKey d hstate, rfl, exec_rxPush_of_maskKey d hstate⟩
  | payload => exact ⟨_, exec_rxPush_of_payload d hstate, rfl, exec_rxPush_of_payload d hstate⟩
  | done =>
    exact ⟨_, exec_rxPush_of_done_or_error d (.inl hstate), rfl, exec_rxPush_of_done_or_error d (.inl hstate)⟩
  | error =>
    exact ⟨_, exec_rxPush_of_done_or_error d (.inr hstate), rfl, exec_rxPush_of_done_or_error d (.inr hstate)⟩

/-- A command that gives RX no byte has the same effect at either role, but for TX_START and RD_REG of CFG. -/
theorem exec_of_role {i : Instr} (hbyte : i.wireByte = none) (s : State) (r : Role)
    (hstart : ∀ fin rsv op len key, i ≠ .txStart fin rsv op len key) (hcfg : i ≠ .rdReg 0x00) :
    ∃ t, exec i s = .next t ∧ t.role = s.role ∧ exec i { s with role := r } = .next { t with role := r } := by
  cases i with
  | nop | rxReset | txReset | reservedCode => exact ⟨_, rfl, rfl, rfl⟩
  | rxAck =>
    by_cases hdone : s.rx.state = .done
    · exact ⟨_, exec_rxAck_of_done hdone, rfl, exec_rxAck_of_done hdone⟩
    · exact ⟨_, exec_rxAck_of_not_done hdone, rfl, exec_rxAck_of_not_done hdone⟩
  | txStart fin rsv op len key => exact absurd rfl (hstart fin rsv op len key)
  | txPush d =>
    cases hstate : s.tx.state with
    | idle => exact ⟨_, exec_txPush_of_idle d hstate, rfl, exec_txPush_of_idle d hstate⟩
    | payload => exact ⟨_, exec_txPush_of_payload d hstate, rfl, exec_txPush_of_payload d hstate⟩
  | rdReg idx =>
    by_cases hmapped : 0x10 < idx.toNat
    · exact ⟨_, execRdReg_of_unmapped hmapped s, rfl, execRdReg_of_unmapped hmapped _⟩
    · obtain ⟨g, rfl⟩ := Reg.exists_index_of_le (Nat.not_lt.mp hmapped)
      have hg : g ≠ .cfg := by
        rintro rfl
        exact hcfg rfl
      refine ⟨_, execRdReg_index g s, rfl, (execRdReg_index g _).trans ?_⟩
      rw [Reg.value_of_role hg]
      rfl
  | _ => cases hbyte

/-- Settles O48: the instructions that give RX a byte, outside HDR1, and the others. -/
theorem roleSelectsMaskingOnly : Obligations.RoleSelectsMaskingOnly := by
  intro i s r hstart hcfg hheader
  cases hbyte : i.wireByte with
  | none => exact exec_of_role hbyte s r hstart hcfg
  | some d =>
    have hstate : s.rx.state ≠ .hdr1 := by
      intro hs
      obtain ⟨hpush, hframe⟩ := hheader hs
      obtain ⟨-, hencode⟩ := encode_of_wireByte hbyte (hpush d)
      rw [hencode] at hframe
      cases hframe
    rw [exec_of_wireByte hbyte, exec_of_wireByte hbyte]
    exact rxPushByte_of_role d r hstate

/-! ### Instances (R222) -/

/-- Stepping number `k` of several replaces its state by the next one, as every step completes. -/
theorem exists_stepInstance_eq_modify :
    ∃ f : State → State, (∀ s, step s = .next (f s)) ∧
      ∀ k system, stepInstance k system = .next (system.modify k f) := by
  obtain ⟨f, hf⟩ := Classical.skolem.mp everyStepCompletes
  refine ⟨f, hf, fun k system => ?_⟩
  rw [stepInstance, List.modify_eq_set_getElem?]
  cases system[k]? with
  | none => rfl
  | some s => simp [hf s]

/-- Settles O50: a list modified at one place keeps the others, and two places are modified in either order. -/
theorem instancesShareNoState : Obligations.InstancesShareNoState := by
  intro system j k hne
  obtain ⟨f, hf, hstep⟩ := exists_stepInstance_eq_modify
  refine ⟨fun system' h => ?_, fun a b c d ha hb hc hd => ?_⟩
  · cases (hstep k system).symm.trans h
    exact ⟨List.getElem?_modify_ne f system hne.symm, List.length_modify .., fun s hs => ⟨f s, hf s, by simp [hs]⟩⟩
  · cases (hstep j system).symm.trans ha
    cases (hstep k system).symm.trans hc
    cases (hstep k _).symm.trans hb
    cases (hstep j _).symm.trans hd
    exact List.modify_modify_ne f f system hne

end Sys2Proof.Machine
end
